-- ==== Sys2Proof/Word.lean ====
section
/-! DEFINITION. The word types of the DZ7128 (00 R4, R6, R11) and their plainest arithmetic: bit fields of a
word, little-endian bytes, and the sparse sorted map in which State keeps what has an index. -/
namespace Sys2Proof

/-- A byte of memory. -/
abbrev Byte := BitVec 8

/-- A word of the manual: 128 bits (00 R4). -/
abbrev Word := BitVec 128

/-- A register value: 64 bits (00 R11). -/
abbrev Reg64 := BitVec 64

/-- The field [hi:lo] of a word, as a number (00 R5). -/
def fld {w : Nat} (v : BitVec w) (hi lo : Nat) : Nat := (v.toNat >>> lo) % 2 ^ (hi + 1 - lo)

/-- One bit of a word. -/
def bit {w : Nat} (v : BitVec w) (n : Nat) : Bool := v.toNat.testBit n

/-- `v` with the field [hi:lo] replaced by the low bits of `n`. -/
def putFld {w : Nat} (v : BitVec w) (hi lo n : Nat) : BitVec w :=
  let k := 2 ^ (hi + 1 - lo)
  let low := v.toNat % 2 ^ lo
  let high := v.toNat >>> (hi + 1)
  BitVec.ofNat w (low + (n % k) * 2 ^ lo + high * 2 ^ (hi + 1))

/-- A field's value read as a signed number of `k` bits. -/
def signed (k n : Nat) : Int := if n % 2 ^ k < 2 ^ (k - 1) then (n % 2 ^ k : Nat) else (n % 2 ^ k : Nat) - (2 ^ k : Nat)

/-- The field value of a signed number in `k` bits (two's complement). -/
def unsigned (k : Nat) (z : Int) : Nat := (z % (2 ^ k : Nat)).toNat

/-- A count that saturates in a field of `k` bits. -/
def satAdd (k a b : Nat) : Nat := min (2 ^ k - 1) (a + b)

/-- 0 or 1. -/
def bnat (b : Bool) : Nat := if b then 1 else 0

/-- `x` held to [lo, hi]. -/
def clampInt (x lo hi : Int) : Int := max lo (min x hi)

/-- `x` held to [lo, hi]. -/
def clampNat (x lo hi : Nat) : Nat := max lo (min x hi)

/-- ⌈a / b⌉. -/
def ceilDiv (a b : Nat) : Nat := (a + b - 1) / b

/-- A number from bytes, first byte least significant (00 R6). -/
def leNat : List Byte → Nat
  | [] => 0
  | b :: bs => b.toNat + 256 * leNat bs

/-- A number from bytes, first byte most significant (network order). -/
def beNat (bs : List Byte) : Nat := bs.foldl (fun n b => n * 256 + b.toNat) 0

/-- The `k` bytes of a number, least significant first. -/
def leBytes : Nat → Nat → List Byte
  | 0, _ => []
  | k + 1, n => BitVec.ofNat 8 n :: leBytes k (n / 256)

/-- The `k` bytes of a number, most significant first. -/
def beBytes (k n : Nat) : List Byte := (leBytes k n).reverse

/-- A sparse map from numbers: pairs with strictly rising keys. -/
abbrev SMap (α : Type) := List (Nat × α)

/-- The entry of key `k`. -/
def SMap.get? {α : Type} : SMap α → Nat → Option α
  | [], _ => none
  | (j, a) :: m, k => if j = k then some a else SMap.get? m k

/-- The entry of key `k`, or `d`. -/
def SMap.getD {α : Type} (m : SMap α) (k : Nat) (d : α) : α := (m.get? k).getD d

/-- The map with `k` at `a`. -/
def SMap.put {α : Type} : SMap α → Nat → α → SMap α
  | [], k, a => [(k, a)]
  | (j, b) :: m, k, a => if k < j then (k, a) :: (j, b) :: m else if k = j then (k, a) :: m else (j, b) :: SMap.put m k a

/-- The map without key `k`. -/
def SMap.del {α : Type} : SMap α → Nat → SMap α
  | [], _ => []
  | (j, b) :: m, k => if j = k then m else (j, b) :: SMap.del m k

/-- Keys strictly rise. -/
def SMap.rising {α : Type} : SMap α → Bool
  | [] => true
  | [_] => true
  | (j, _) :: (k, b) :: m => decide (j < k) && SMap.rising ((k, b) :: m)

/-- Element `i` of a list replaced (unchanged beyond its end). -/
def setAt {α : Type} : List α → Nat → α → List α
  | [], _, _ => []
  | _ :: as, 0, a => a :: as
  | b :: as, n + 1, a => b :: setAt as n a

/-- The list without its first element that meets `p`. -/
def dropFirst {α : Type} (p : α → Bool) : List α → List α
  | [] => []
  | a :: as => if p a then as else a :: dropFirst p as

end Sys2Proof
end

