-- ==== Sys2Proof/Syntax.lean ====
section
/-! DEFINITION. The commands of the DZ7128: one constructor of Instr for each row of the opcode table, with the
operands the row's rules give it, and the types of those operands. -/
namespace Sys2Proof

/-- Masters of register accesses, with the codes of DEV_ACCESS_LAST.source (01 R33). -/
inductive Master where
  | hif0 | hif1 | mgmt | inband
  | ctl (n : Nat)
  | other                  -- debug access through IEEE 1149.1 (00 R1)
  deriving DecidableEq, Repr

/-- Producers and readers of queues (11 R278): a core, or one hardware unit. -/
inductive Agent where
  | core (n : Nat)        -- core number: signal core 4 * physical station + k, control core 1024 + n
  | lg (n : Nat)
  | vcc (n : Nat)
  | cmp (n : Nat)
  | aud (n : Nat)
  | mem (n : Nat)
  | sec
  | dis
  | mtb
  | hif
  | log
  | pwr
  | mover (core : Nat)
  | engine (e : Nat)
  deriving DecidableEq, Repr

/-- Registers that the scalar moves of 09 R256 name. -/
inductive SReg where
  | g (n : Nat) | p (n : Nat) | m (n : Nat) | c (n : Nat)
  deriving DecidableEq, Repr

/-- Data registers of loads and stores: g or w (09 R237). -/
inductive DReg where
  | g (n : Nat) | w (n : Nat)
  deriving DecidableEq, Repr

/-- Scalar operations of slot 0 (09 R256); `func` values are not in the spec, so operations are named (log 20). -/
inductive ScalarOp where
  | add | sub | and | or | xor | shl | shr | sar | mul | seq | sne | slt | sltu | sge | sgeu
  deriving DecidableEq, Repr

/-- Second source of a scalar operation: format A's gb or format I's imm16. -/
inductive ScalarSrc where
  | reg (gb : Nat) | imm (i : Int)
  deriving DecidableEq, Repr

/-- Vector operations of slots 2 and 3 (09 R256; log 20). -/
inductive VecOp where
  | add | sub | min | max | shl | shr | sar | and | or | xor | cmpEq | cmpLt | pack | shuffle
  | accToVec (acc lane : Nat) | vecToAcc (acc lane : Nat)
  deriving DecidableEq, Repr

/-- Privileged registers (09 R254). -/
inductive PrivReg where
  | psr | tvec | epc | cause | tval | ptbr
  deriving DecidableEq, Repr

/-- The saturating stores (09 R242). -/
inductive SatKind where
  | sat16 | sat32 | satp
  deriving DecidableEq, Repr

/-- The multiply fields of format X (09 R237, R240). -/
structure MacCtl where
  paired : Bool
  c24 : Bool
  neg : Bool
  clear : Bool
  bcast : Bool
  bsel : Nat
  deriving DecidableEq, Repr

/-- The address fields of format M (09 R237, R238). -/
structure AddrMode where
  p : Nat
  m : Nat
  amode : Nat
  imm : Int
  deriving DecidableEq, Repr

/-- One Tarermeus instruction (09 R233, R237, R256). -/
inductive CoreInstr where
  | nop
  | scalar (op : ScalarOp) (gd ga : Nat) (src : ScalarSrc)
  | moveReg (dst src : SReg)
  | branch (cond ga : Nat) (off : Int)
  | call (cond ga : Nat) (off : Int)
  | ret (cond ga : Nat)
  | rep (c len : Nat) (fromG : Bool) (count : Nat)
  | syncI
  | mfp (gd : Nat) (r : PrivReg)
  | mtp (r : PrivReg) (ga : Nat)
  | waitI
  | tlbinv (ga : Nat)
  | eret
  | limit (gE gK w : Nat)
  | load (dst : DReg) (size : Nat) (sext : Bool) (am : AddrMode)
  | store (src : DReg) (size : Nat) (am : AddrMode)
  | qpush (w g : Nat) (last : Bool)
  | qpop (w g gd : Nat)
  | qmark (g k gd : Nat)
  | qrewind (g k gd : Nat)
  | qrelease (g flags gd : Nat)
  | qflush (g gd : Nat)
  | tready (g gd : Nat)
  | tcancel (g gd : Nat)
  | moveI (w gd : Nat) (wait : Bool)
  | callsvc (gd ga n : Nat)
  | valu (op : VecOp) (wd wa wb lanes : Nat)
  | mac (a wa wb : Nat) (x : MacCtl)
  | tapd (a wb p m : Nat) (x : MacCtl)
  | sat (k : SatKind) (a wd shift h : Nat) (clear : Bool)
  | reserved (op : Nat)
  deriving DecidableEq, Repr

/-- A bundle of four slots (09 R232). -/
structure Bundle where
  s0 : CoreInstr
  s1 : CoreInstr
  s2 : CoreInstr
  s3 : CoreInstr
  deriving DecidableEq, Repr

/-- Damage to a picture (05 R135): its kind, the CTU in coding order at which it is found, and whether it lies inside that CTU or
before it. -/
structure Damage where
  kind : Nat
  ctu : Nat
  inside : Bool
  deriving DecidableEq, Repr

/-- The vectors, in luma samples, of the decoded blocks to the left of a CTU, above it and above right (05 R136). -/
structure Around where
  ctu : Nat                  -- address, row by row
  left : Option (Int × Int)
  top : Option (Int × Int)
  topRight : Option (Int × Int)
  deriving DecidableEq, Repr

/-- A read of a reference picture (05 R137): the CTU that reads, by address, the order of the picture it names, and the tile of that
picture's surface. -/
structure RefRead where
  ctu : Nat
  order : Int
  tile : Nat
  deriving DecidableEq, Repr

/-- What the codec standards named by 05 R118 find in the data of a picture that is left after the discards of 05 R119: the spec leaves
decoding to the standards, so the command carries their findings (log 21). Orders are POCs or order hints. -/
structure DecodeFacts where
  profile : Nat              -- as 05 R118 lists a codec's profiles, from 0; another: none of them
  level : Nat                -- in tenths
  depth : Nat
  chroma : Nat               -- 0 monochrome, 1 4:2:0, other
  interlaced : Bool          -- a field picture or MBAFF
  brings : List (Nat × Nat)  -- parameter sets in the data: 0 VPS, 1 SPS, 2 PPS, 3 sequence header; id
  needs : List (Nat × Nat)   -- parameter sets that the picture refers to
  width : Nat                -- W, H of 05 R129
  height : Nat
  codedW : Nat               -- before cropping
  codedH : Nat
  cropX : Nat
  cropY : Nat
  ctu : Nat                  -- edge of a CTU
  scan : List Nat            -- CTU addresses in coding order; empty: row by row
  tiles : Nat                -- codec tiles
  slices : Nat
  wavefront : Bool
  showOnly : Option Nat      -- AV1: the slot of an existing frame that the unit only shows
  keyFrame : Bool            -- AV1: a key frame
  order : Int
  names : List Int           -- the references it names
  isRef : Bool               -- the picture stays as a reference
  dropRefs : Nat             -- mask of slots that leave refs at picture end
  recoverySei : Option Nat   -- count of a recovery point SEI
  boundaries : List Nat      -- the CTUs, in coding order, at which slices, codec tiles or OBUs that arrived begin
  damage : List Damage
  around : List Around
  reads : List RefRead
  lumaRows : List (List Nat) -- decoded samples of the cropped picture, row by row, at its depth
  cbRows : List (List Nat)
  crRows : List (List Nat)
  deriving DecidableEq, Repr

/-- A Delay_Req as it arrives (02 R49, R50): the message, and the MAC and IP address of a requester that sent it unicast. -/
structure PtpRequest where
  msg : List Byte
  sender : Option (Nat × Nat)
  deriving DecidableEq, Repr

/-- One packet of an encoded temporal unit (06 R170, R171): which encoding, whether it is its last, the dependency descriptor element
and the payload of the codec's RTP payload format. -/
structure EncPacket where
  enc : Nat
  last : Bool
  dd : List Byte
  payload : List Byte
  deriving DecidableEq, Repr

/-- A block predicted from a reference (06 R150, R161, R163): from the lower layer's picture of the temporal unit or from the reference
of its temporal layer; its place and size in luma samples, its vector in quarter samples, and the candidate of the 1/16-area search. -/
structure Motion where
  lower : Bool
  x : Nat
  y : Nat
  w : Nat
  h : Nat
  dx : Int
  dy : Int
  coarseX : Int
  coarseY : Int
  deriving DecidableEq, Repr

/-- A coded CTU (06 R162-R168): intra or not, its quantiser, its bits coded normally and in floor mode, one past the rightmost luma
column that intra prediction and in-loop filtering read for it, its predicted blocks. -/
structure CtuCode where
  intra : Bool
  qp : Nat
  normal : Nat
  floor : Nat
  reach : Nat
  motion : List Motion
  deriving DecidableEq, Repr

/-- A coded layer picture (06 R152, R166-R168): its header bits, its CTUs row by row, and the reconstructed samples. -/
structure LayerCode where
  header : Nat
  ctus : List CtuCode
  lumaRows : List (List Nat)
  cbRows : List (List Nat)
  crRows : List (List Nat)
  deriving DecidableEq, Repr

/-- How an encode job's coding went (06 R149-R172): the quantiser, modes and vectors are the core's choice within the rules, so they
are its findings (log 21). -/
structure EncodeFacts where
  level : Nat                -- in tenths, as the core writes it
  profile : Nat              -- as the core writes it, in the order of 06 R149
  sei : Option Nat           -- count of the recovery point SEI
  kind : Nat                 -- partitions: 0 one; 1 codec tiles; 2 slices; 3 wavefront rows
  spans : List Nat           -- first CTU column of each partition of layer 0
  layers : List LayerCode    -- lowest first
  deriving DecidableEq, Repr

/-- A sample as an audio port receives it (08 R209, R214): the bits of its slot, or the audio of its AES3 subframe with V, U, C, the Z of
its frame, and whether its parity or biphase code was wrong. -/
structure PortSample where
  bits : BitVec 32
  v : Bool
  u : Bool
  c : Bool
  z : Bool
  err : Bool
  deriving DecidableEq, Repr

/-- Which record RECORD_WRITEBACK writes. -/
inductive WbKind where
  | stream | sub | leg
  deriving DecidableEq, Repr

/-- Kinds of units that DIS_UNIT_CMD names (10 R274). -/
inductive UnitKind where
  | station | codec | composer | audio
  deriving DecidableEq, Repr

/-- Readers of guarded tiles, with the kinds of MEM_CRC_LAST (13 R334). -/
inductive TileReader where
  | forwarder | decoder | encoder | composer | audio | mover | other | writePath
  deriving DecidableEq, Repr

/-- The commands: one constructor for each row of the opcode table. -/
inductive Instr where
  -- register accesses (00 R10-R13, 01 R31)
  | registerWrite (m : Master) (addr : Nat) (v : Reg64)
  | clearingRead (m : Master) (addr : Nat)
  | unmappedAccess (m : Master) (write : Bool) (addr : Nat) (v : Reg64)
  | misalignedAccess (m : Master) (write : Bool) (addr size : Nat) (v : Reg64)
  | stnMapWrite (m : Master) (n : Nat) (v : Reg64)
  -- meridian (02)
  | meridianAdvance (cycles : Nat)
  | oscFallback
  | oscSelWrite (m : Master) (present : Bool) (v : Reg64)
  | lock (m : Master) (v : Reg64)
  | holdover (m : Master) (v : Reg64)
  | relock (m : Master) (v : Reg64)
  | run (m : Master) (v : Reg64)
  | vernierWrite (m : Master) (v : Reg64)
  | holdoverWatchdogExpiry
  | rateLearningUpdate
  | set (m : Master) (v : Reg64)
  | timeSecRead (m : Master)
  | ptpReceive (port : Nat) (msg : List Byte)
  | syncInterval (port : Nat)
  | delayResp (port : Nat) (req : PtpRequest)
  | pdelayResp (port : Nat) (msg : List Byte)
  | rasterEnable (m : Master) (k : Nat) (v : Reg64)
  | tickBoundary
  | transitEntryWrite (m : Master) (i which : Nat) (v : Reg64)
  | firingMessageIssue (i : Nat)
  | transitFire (i : Nat)
  | frameOutPulseEnd (pin : Nat)
  | firingCommitCanvas (i : Nat)
  | firingStartTaskSet (i : Nat)
  | firingOpenGateCycle (i : Nat)
  | firingReleaseLaunch (i : Nat)
  | ppsOutRise
  | ppsOutFall
  | ppsInEdge
  -- ingress (03, 12 R294)
  | frameReceive (lg port : Nat) (bytes : List Byte) (fcsGood : Bool)
  | ingressPipeline (lg : Nat)
  | bufRet (m : Master) (lg : Nat) (v : Reg64)
  | insert (m : Master) (ticket stream : Nat)
  | delete (m : Master) (ticket stream : Nat)
  | update (m : Master) (ticket stream : Nat)
  | flowSync (m : Master) (ticket stream : Nat)
  | flowCmdComplete
  | stopLeg (m : Master) (ticket index : Nat)
  | restartLeg (m : Master) (ticket index : Nat)
  | blockStream (m : Master) (ticket index : Nat)
  | unblockStream (m : Master) (ticket index : Nat)
  | stopApply (lg : Nat)
  | stopSweepDone (lg : Nat)
  | stopComplete
  | recordWriteback (kind : WbKind) (idx : Nat)
  | policerConfigWrite (m : Master) (lg i which : Nat) (v : Reg64)
  -- forwarding (04)
  | localPacketIntake (lg : Nat)
  | replicationWalk (lg : Nat)
  | copyEnqueue (lg : Nat)
  | select (m : Master) (lg ticket sp t index : Nat)
  | refresh (m : Master) (lg ticket index : Nat)
  | clear (m : Master) (lg ticket index : Nat)
  | reloadLeg (m : Master) (lg ticket index : Nat)
  | reloadRoom (m : Master) (lg ticket index : Nat)
  | selCmdComplete (lg : Nat)
  | retransmitRequest (lg : Nat)
  | bufferHoldExpiry (buf : Nat)
  | bufferRelease (buf : Nat)
  | classShaperWrite (m : Master) (lg i which : Nat) (v : Reg64)
  -- codec cores (05, 06)
  | jobTake (core : Nat)
  | startByExpiry (core queue : Nat)
  | decodeComplete (core : Nat) (f : DecodeFacts)
  | codecBudgetPause (core : Nat)
  | encodePreempt (core : Nat)
  | encodePacketOut (core : Nat) (p : EncPacket)
  | encodeComplete (core : Nat) (f : EncodeFacts)
  -- composers (07)
  | commitRequest (m : Master) (cmp : Nat) (v : Reg64)
  | insetShadowWrite (m : Master) (cmp c i which : Nat) (v : Reg64)
  | latchPoint (cmp c : Nat)
  | frameComposed (cmp c : Nat)
  | frameDeadlineMiss (cmp c : Nat)
  -- audio (08)
  | outputLatch (node port : Nat)
  | outputBufferReturn (node port : Nat)
  | inputBlockBoundary (node port : Nat)
  | inputBlockPush (node port : Nat) (samples : List PortSample)
  | flowLatch (node f : Nat)
  | flowPacketHandoff (node f : Nat)
  | audioPortEnable (m : Master) (node port : Nat) (v : Reg64)
  | audioPortStop (m : Master) (node port : Nat) (v : Reg64)
  | routeWrite (m : Master) (node port : Nat) (v : Reg64)
  | maskWrite (m : Master) (node port : Nat) (v : Reg64)
  | portLock (node port ratio : Nat)
  | portUnlock (node port ratio : Nat)
  | csBlockReceive (node port : Nat) (ch0 ch1 : List Byte)
  | flowEnable (m : Master) (node f : Nat) (v : Reg64)
  -- cores (09)
  | bundleExecute (core : Nat) (b : Bundle)
  | sync (core : Nat)
  | dramLoadReply (core : Nat)
  | interruptEntry (core : Nat)
  | postedAck (core : Nat)
  | queueReply (core : Nat)
  | move (core : Nat)
  | moveComplete (core : Nat)
  -- accounts and dispatch (10)
  | accountCharge (account currency amount : Nat)
  | exhaustionNews (consumer : Agent)
  | taskReady (core : Option Nat) (rec : Nat)
  | taskCancel (core : Option Nat) (rec : Nat) (meetsReady : Bool)
  | slotFill
  | taskStart (core : Nat)
  | taskEnd (core : Nat)
  | drain (m : Master) (ticket : Nat) (kind : UnitKind) (index : Nat)
  | halt (m : Master) (ticket : Nat) (kind : UnitKind) (index : Nat) (begun : List Nat)
  | resume (m : Master) (ticket : Nat) (kind : UnitKind) (index : Nat)
  | unitDrained (kind : UnitKind) (index : Nat)
  | listConfigWrite (m : Master) (l : Nat) (v : Reg64)
  -- queues (11)
  | qpush (producer : Agent) (queue : Nat) (word : Word) (last : Bool)
  | itemCommit (queue : Nat)
  | qpop (reader : Agent) (queue : Nat)
  | qmark (reader : Agent) (queue k : Nat)
  | qrewind (reader : Agent) (queue k : Nat)
  | qrelease (reader : Agent) (queue flags : Nat)
  | qflush (reader : Agent) (queue : Nat)
  | openQueue (m : Master) (node ticket queue : Nat)
  | close (m : Master) (node ticket queue : Nat)
  | queueSync (m : Master) (node ticket queue : Nat)
  | flush (m : Master) (node ticket queue : Nat)
  -- ports (12)
  | linkPortEnable (m : Master) (lg port : Nat) (v : Reg64)
  | linkPortDisable (m : Master) (lg port : Nat) (v : Reg64)
  | linkUp (lg port : Nat)
  | linkDown (lg port : Nat)
  | refclkPresent (lg : Nat)
  | refclkLoss (lg : Nat)
  | portFrameStart (lg port : Nat)
  | gateEvent (lg port : Nat)
  | gateListChange (m : Master) (lg port : Nat) (v : Reg64)
  | gateListSwitch (lg port : Nat)
  | txItem (lg : Nat)
  | launchRelease (lg port q : Nat)
  | launchLate (lg port q : Nat)
  | lpiEnter (lg port : Nat)
  | lpiWake (lg port : Nat)
  | packetiserEnable (m : Master) (lg ticket flow : Nat)
  | packetiserDisable (m : Master) (lg ticket flow : Nat)
  | packetiserReload (m : Master) (lg ticket flow : Nat)
  | videoPacketRelease (lg flow : Nat)
  -- memory nodes (13)
  | tileWrite (writer : Agent) (account : Option Nat) (addr : Nat) (data : List Byte) (crc : Nat)
  | tileRead (reader : TileReader) (gx gy addr : Nat)
  | checksumFailureReport
  | dramAccess (node chan : Nat)
  | rowIdleClose (node chan bank : Nat)
  | neighbourRefresh (node chan : Nat)
  | parityAlert (node chan : Nat)
  | selfRefreshEntry (node chan : Nat)
  | selfRefreshExit (node chan : Nat)
  | bandWrite (m : Master) (b : Nat) (v : Reg64)
  | startTrainingEnd (failed : List Nat)
  | retrain (m : Master) (node ticket chan : Nat)
  | retrainComplete (node : Nat) (ok : Bool)
  -- security (14)
  | keyLoad (m : Master) (ticket bank slot : Nat)
  | keyClear (m : Master) (ticket bank slot : Nat)
  | keyCmdComplete
  | claim
  | release
  | lockAutoRelease (e : Nat)
  | gcmEncrypt (e : Nat)
  | gcmDecrypt (e : Nat)
  | ctr (e : Nat)
  | hmacSha1 (e : Nat)
  | cipherJobComplete (e : Nat)
  | drbgReseed (healthy : Bool)
  | rngStale
  | rngRead (m : Master)
  | alarm (bit : Nat)
  | alarmClear (m : Master) (active : Nat) (v : Reg64)
  -- interrupts (15)
  | interruptEvent (source : Nat)
  | softwareSet (m : Master) (a : Nat) (v : Reg64)
  | interruptPresent (target : Nat)
  | interruptClaim (m : Master) (target : Nat)
  | eoi (m : Master) (target source : Nat)
  | sourceConfigWrite (m : Master) (source : Nat) (v : Reg64)
  | waitWake (core : Nat)
  | targetReset (target : Nat)
  -- log book (16)
  | logEvent (code block unit severity : Nat) (prog : Bool) (snap : List Nat)
  | ringMove
  | flushStart
  | flushPage
  | flashError
  | logFlush (m : Master) (ticket : Nat)
  | readSector (m : Master) (ticket sector : Nat)
  | flashEnable (m : Master) (v : Reg64)
  -- ownership (17)
  | ownerClaim (m : Master) (v : Reg64)
  | ownerRelease (m : Master) (v : Reg64)
  | renew (m : Master)
  | leaseLapse
  | handoverWrite (m : Master) (v : Reg64)
  | ibaRequest
  | mgmtRequest (body : List Byte)
  | stnLoad (m : Master) (n : Nat) (v : Reg64)
  | stnLoadComplete (n : Nat)
  | hold (m : Master) (cluster ticket : Nat) (force : Bool)
  | clusterLoadComplete (cluster : Nat)
  | runCluster (m : Master) (cluster ticket : Nat)
  | datumRead (m : Master) (ticket addr : Nat)
  | datumWrite (m : Master) (ticket addr : Nat)
  | datumWriteComplete
  | reloadSensorTrims (m : Master) (ticket : Nat)
  -- reset, start-up, power (18)
  | porstAssert
  | porstRelease
  | sysrstAssert
  | sysrstRelease
  | bootImageCheck
  | aliveKick (m : Master) (v : Reg64)
  | aliveToggle
  | aliveExpiry
  | twinAliveEdge
  | twinAliveTimeout
  | pwrfailFall
  | regulatorPoll (answers : List (Option (Nat × Nat)))
  | avsUpdate (target : Nat)
  | powerEstimate (e : Nat)
  | powerGate (kind : UnitKind) (index : Nat)
  | powerWake (kind : UnitKind) (index : Nat)
  | thermalWarn (hot : Nat)
  | thermalCapStep (hot : Nat)
  | thermtrip (hot : Nat)
  | clusterLoad (m : Master) (cluster ticket : Nat) (dram cs : Bool) (addr : Nat)
  | perBankRefresh (node chan bank : Nat) (forced : Bool)
  | lpiReceived (lg port : Nat) (enter : Bool)
  | gangEnable (m : Master) (g : Nat) (v : Reg64)
  | pcieLinkUp (hif : Nat)
  deriving DecidableEq, Repr

end Sys2Proof
end

