-- ==== Sys2Proof/Config.lean ====
section
/-! DEFINITION. What one device fixes and the spec leaves open: free values, opaque constants without a body. -/
namespace Sys2Proof.Config

/-- The ordering code: true for DZ7128-S00 (00 R1, 01 R33). One part has one code; which is open (log 17). -/
opaque secured : Bool

/-- A free value: the n-th value of that many bits which the spec leaves undefined or does not state (log 4). -/
opaque freeValue : Nat → Nat

/-- The buffers, by address of their first tile, of a link group's receive pool (03 R66, 04 R112): the spec gives the
pools no place (log 11). -/
opaque rxPool : Nat → List Nat

/-- The built-in coefficient words of the composers, by register name number and index: windowed-sinc sets that the
spec does not list (07 R193, R201; log 12). -/
opaque coef : Nat → Nat → Sys2Proof.Reg64

/-- What a scaler pipe gives where rounding, range or the spread of its taps over more lines is not stated, as a function of
the lines' filtered sums, the vertical taps and the divisor (07 R192, R193; log 52). -/
opaque pipeValue : List Int → List Int → Nat → Nat

/-- Which tap of the eight, and of the four, stands on the sample a position begins in (07 R192; log 52). -/
opaque hOrigin : Nat
opaque vOrigin : Nat

/-- What a colour conversion gives where its exact value is no code: the spaces, ranges and depth, the samples, the component
(07 R190; log 52). -/
opaque colour : List Nat → List Nat → Nat → Nat

/-- R'G'B' of a space as the light that a display shows, reference white 1, and that light as R'G'B' of a space: the transfer functions of
BT.709 and BT.2100 with the levels of BT.2408 that 07 R190 names, the HLG display at 1,000 cd/m2 (log 93). -/
opaque lightOf : Nat → List Rat → List Rat
opaque codeOf : Nat → List Rat → List Rat

/-- The hash of a destination node and virtual channel by which a sender chooses a port of the node (01 R26; log 89). -/
opaque portHash : Nat → Nat → Nat

/-- The fixed 2:1 filter of the encoder (06 R159), which the spec does not state: a plane, the place in the smaller one (log 91). -/
opaque halve : List (List Nat) → Nat → Nat → Nat

/-- A sample that a rate converter gives (08 R212): the filter is not stated. The samples it has, the position among them (log 94). -/
opaque resample : List Nat → Int → Nat → Nat

/-- The hash of the image key in the fuses (18 R408). -/
opaque fuseHash : List Sys2Proof.Byte

/-- The wrapping key of a bank, of its n-th drawing from the DRBG (14 R337; log 4). -/
opaque wrapKey : Nat → Nat → Nat

/-- SHA-384 (FIPS 180-4), named by 18 R408; the spec does not state it (log 18). -/
opaque sha384 : List Sys2Proof.Byte → List Sys2Proof.Byte

/-- ECDSA P-384 verification of a digest under a key and a signature (18 R408; log 18). -/
opaque ecdsaOk : List Sys2Proof.Byte → List Sys2Proof.Byte → List Sys2Proof.Byte → Bool

/-- The oscillator trim in force without a valid datum sheet, as the sheet's 40 bits hold it (17 R400, R401; log 8). -/
opaque defaultTrim : Nat

/-- The built-in default asymmetry word of a port (17 R401; log 8). -/
opaque defaultAsym : Nat → Sys2Proof.Reg64

/-- Has a physical station passed its start-up self-test (01 R31; log 68)? -/
opaque selfTest : Nat → Bool

end Sys2Proof.Config
end

