-- ==== Sys2Proof/Machine/RegMap.lean ====
section
/-! DEFINITION. The register map of the control window (00 R8, R12, R33 and the register tables of every chapter):
each register's block, offset and fields, written from the tables of spec/. -/
namespace Sys2Proof.Machine

/-- Blocks of the control window (00 R8). -/
inductive Block where
  | DEV | MTB | DIS | INC | LOG | PWR | SEC | LNK | CMP | AUD | MEM | VCC | STN | CTL | HIF
  deriving DecidableEq, Repr

/-- First block index and number of blocks of a kind (00 R8). -/
def Block.span : Block → Nat × Nat
  | .DEV => (0x000, 1) | .MTB => (0x001, 1) | .DIS => (0x002, 1) | .INC => (0x003, 1) | .LOG => (0x004, 1)
  | .PWR => (0x005, 1) | .SEC => (0x006, 1) | .LNK => (0x010, 16) | .CMP => (0x020, 4) | .AUD => (0x028, 2)
  | .MEM => (0x040, 32) | .VCC => (0x080, 64) | .STN => (0x100, 128) | .CTL => (0x180, 4) | .HIF => (0x190, 1)

/-- Access codes (00 R12). -/
inductive Access where
  | rw | ro | wo | w1c | w1s | rc
  deriving DecidableEq, Repr

/-- A field of a register: bits, access, reset value; reserved bits are not listed. -/
structure FieldSpec where
  hi : Nat
  lo : Nat
  acc : Access
  reset : Nat
  deriving DecidableEq, Repr

/-- A register or an array of registers: block, offset of index 0, stride, count, whether only the first block of the
kind has it, and its fields. -/
structure RegInfo where
  blk : Block
  off : Nat
  stride : Nat
  count : Nat
  firstOnly : Bool
  fields : List FieldSpec
  deriving DecidableEq, Repr

/-- The registers, by the names the manual gives them. -/
inductive RegName where
  | DEV_ID | DEV_ACCESS_ERR | DEV_ACCESS_LAST | DEV_STN_MAP | DEV_OWNER | DEV_LEASE
  | DEV_HANDOVER | DEV_DELEGATE | DEV_OWN_CNT | DEV_IBA_QUEUE | STN_LOAD_CMD | STN_LOAD_STAT
  | CTL_CMD | CTL_STAT | PWR_DATUM_CMD | PWR_DATUM_STAT | MTB_CTRL | MTB_STATUS
  | MTB_TIME_SEC | MTB_TIME_NS | MTB_MTIME | MTB_SET_SEC | MTB_SET_NS | MTB_SLEW_LIMIT
  | MTB_VERNIER | MTB_PHASE_ADJ | MTB_RATE_LEARNED | MTB_HOLD | MTB_TICK | MTB_PPS
  | MTB_PPS_IN_TS | MTB_TRANSIT_LEAD | MTB_CLOCK_ID | MTB_PTP_QUEUE | MTB_RASTER_RATE | MTB_RASTER_GEOM
  | MTB_RASTER_OFFSET | MTB_RASTER_PHASE | MTB_ASYM | MTB_PTP_PORT | MTB_TRN_CTRL | MTB_TRN_WHEN
  | MTB_TRN_ACT | MTB_TRN_STAT | DIS_CTRL | DIS_STATUS | DIS_SCALE | DIS_SET_BASE
  | DIS_UNIT_CMD | DIS_UNIT_STAT | DIS_CNT | DIS_LIST_CFG | DIS_LIST_STN0 | DIS_LIST_STN1
  | DIS_LIST_STAT | DIS_STN_STATE | DIS_ACCT_CFG | DIS_ACCT_GRANT0 | DIS_ACCT_GRANT1 | DIS_ACCT_LEFT0
  | DIS_ACCT_LEFT1 | DIS_ACCT_STAT | INC_SRC | INC_CLAIM | INC_EOI | INC_TGT_STAT
  | INC_SW_SET | INC_CNT | INC_DB_CTRL | INC_QWATCH | LOG_CTRL | LOG_STATUS
  | LOG_CMD | LOG_CMD_STAT | LOG_CNT | LOG_FLASH | LOG_WRPTR | LOG_RD_ADDR
  | LOG_RING | PWR_STATUS | PWR_CAP | PWR_MEAS | PWR_ALIVE | PWR_THERM
  | PWR_BOOT_STAT | PWR_GATE_CFG | PWR_GATE_STN0 | PWR_GATE_STN1 | PWR_GATE_VCC | PWR_RAIL
  | SEC_STATUS | SEC_ALARM_EN | SEC_ALARM_STAT | SEC_RNG | SEC_KEY_BASE | SEC_KEY_CMD
  | SEC_KEY_STAT | SEC_REQ_QUEUE | SEC_CNT | SEC_KEY_DATA | SEC_LOCK | LNK_ING_CTRL
  | LNK_ING_CNT | LNK_DSCP_COLOUR | LNK_BUF_RET | LNK_EXC_QUEUE | LNK_KEY_BASE | LNK_STREAM_BASE
  | LNK_CRYPTO_BASE | LNK_TMAP_BASE | LNK_FLOW_CMD | LNK_FLOW_STAT | LNK_STOP_CMD | LNK_STOP_STAT
  | LNK_POL_CFG0 | LNK_POL_CFG1 | LNK_LEG_BASE | LNK_SUB_BASE | LNK_REPL_BASE | LNK_ROOM_BASE
  | LNK_EGR_CTRL | LNK_EGR_CNT | LNK_SEL_CMD | LNK_SEL_STAT | LNK_RTX_QUEUE | LNK_LOCAL_QUEUE
  | LNK_CLASS_SHP0 | LNK_CLASS_SHP1 | LNK_TX_QUEUE | LNK_TX_CNT | LNK_PKT_BASE | LNK_PKT_CMD
  | LNK_PKT_STAT | LNK_GRP_STAT | LNK_LANE_STAT | LNK_PORT_CFG | LNK_PORT_MAC | LNK_PORT_STAT
  | LNK_PORT_EEE | LNK_PORT_GCTL | LNK_PORT_GBASE | LNK_PORT_GSTAT | LNK_PORT_CNT0 | LNK_PORT_CNT1
  | LNK_MC_HASH | LNK_LT_CFG | LNK_MRG | LNK_MRG_CNT | LNK_GCL | CMP_CTRL
  | CMP_STATUS | CMP_COMMIT | CMP_CNT | CMP_DONE_QUEUE | CMP_REL_QUEUE | CMP_HCOEF
  | CMP_VCOEF | CMP_CAN_CTRL | CMP_CAN_SIZE | CMP_CAN_OUT | CMP_CAN_BG | CMP_CAN_2110
  | CMP_CAN_STAT | CMP_INS_CTRL | CMP_INS_SRC | CMP_INS_SIZE | CMP_INS_CROP | CMP_INS_DST
  | CMP_INS_FENCE | CMP_INS_TARGET | CMP_INS_STAT | AUD_CTRL | AUD_STATUS | AUD_PORT_CFG
  | AUD_PORT_ROUTE | AUD_PORT_MASK | AUD_PORT_RATIO | AUD_PORT_STAT | AUD_PORT_CNT | AUD_TRIM
  | AUD_CS_TX | AUD_CS_RX | AUD_NET_CFG | AUD_NET_ID | AUD_NET_CNT | MEM_TIMING
  | MEM_ERR | MEM_CRC_CNT0 | MEM_CRC_CNT1 | MEM_CRC_LAST | MEM_CHAN_CMD | MEM_CHAN_RES
  | MEM_STATUS | MEM_CHAN_STAT | MEM_BAND | MEM_EXCL | MEM_GUARD | MEM_MAP_ERR
  | MEM_QDESC_BASE | MEM_Q_CMD | MEM_Q_STAT | MEM_Q_CNT | VCC_CTRL | VCC_STATUS
  | VCC_JOBQ | VCC_CNT | VCC_GANG | VCC_TAP_BASE
  deriving DecidableEq, Repr

/-- Registers of the chapters, part 0. -/
def RegName.part0 : List RegName :=
  [.DEV_ID, .DEV_ACCESS_ERR, .DEV_ACCESS_LAST, .DEV_STN_MAP, .DEV_OWNER, .DEV_LEASE, .DEV_HANDOVER, .DEV_DELEGATE, .DEV_OWN_CNT,
   .DEV_IBA_QUEUE, .STN_LOAD_CMD, .STN_LOAD_STAT, .CTL_CMD, .CTL_STAT, .PWR_DATUM_CMD, .PWR_DATUM_STAT, .MTB_CTRL, .MTB_STATUS,
   .MTB_TIME_SEC, .MTB_TIME_NS, .MTB_MTIME, .MTB_SET_SEC, .MTB_SET_NS, .MTB_SLEW_LIMIT, .MTB_VERNIER, .MTB_PHASE_ADJ]

/-- Registers of the chapters, part 1. -/
def RegName.part1 : List RegName :=
  [.MTB_RATE_LEARNED, .MTB_HOLD, .MTB_TICK, .MTB_PPS, .MTB_PPS_IN_TS, .MTB_TRANSIT_LEAD, .MTB_CLOCK_ID, .MTB_PTP_QUEUE,
   .MTB_RASTER_RATE, .MTB_RASTER_GEOM, .MTB_RASTER_OFFSET, .MTB_RASTER_PHASE, .MTB_ASYM, .MTB_PTP_PORT, .MTB_TRN_CTRL,
   .MTB_TRN_WHEN, .MTB_TRN_ACT, .MTB_TRN_STAT, .DIS_CTRL, .DIS_STATUS, .DIS_SCALE, .DIS_SET_BASE, .DIS_UNIT_CMD, .DIS_UNIT_STAT,
   .DIS_CNT, .DIS_LIST_CFG]

/-- Registers of the chapters, part 2. -/
def RegName.part2 : List RegName :=
  [.DIS_LIST_STN0, .DIS_LIST_STN1, .DIS_LIST_STAT, .DIS_STN_STATE, .DIS_ACCT_CFG, .DIS_ACCT_GRANT0, .DIS_ACCT_GRANT1,
   .DIS_ACCT_LEFT0, .DIS_ACCT_LEFT1, .DIS_ACCT_STAT, .INC_SRC, .INC_CLAIM, .INC_EOI, .INC_TGT_STAT, .INC_SW_SET, .INC_CNT,
   .INC_DB_CTRL, .INC_QWATCH, .LOG_CTRL, .LOG_STATUS, .LOG_CMD, .LOG_CMD_STAT, .LOG_CNT, .LOG_FLASH, .LOG_WRPTR, .LOG_RD_ADDR]

/-- Registers of the chapters, part 3. -/
def RegName.part3 : List RegName :=
  [.LOG_RING, .PWR_STATUS, .PWR_CAP, .PWR_MEAS, .PWR_ALIVE, .PWR_THERM, .PWR_BOOT_STAT, .PWR_GATE_CFG, .PWR_GATE_STN0,
   .PWR_GATE_STN1, .PWR_GATE_VCC, .PWR_RAIL, .SEC_STATUS, .SEC_ALARM_EN, .SEC_ALARM_STAT, .SEC_RNG, .SEC_KEY_BASE, .SEC_KEY_CMD,
   .SEC_KEY_STAT, .SEC_REQ_QUEUE, .SEC_CNT, .SEC_KEY_DATA, .SEC_LOCK, .LNK_ING_CTRL, .LNK_ING_CNT, .LNK_DSCP_COLOUR]

/-- Registers of the chapters, part 4. -/
def RegName.part4 : List RegName :=
  [.LNK_BUF_RET, .LNK_EXC_QUEUE, .LNK_KEY_BASE, .LNK_STREAM_BASE, .LNK_CRYPTO_BASE, .LNK_TMAP_BASE, .LNK_FLOW_CMD, .LNK_FLOW_STAT,
   .LNK_STOP_CMD, .LNK_STOP_STAT, .LNK_POL_CFG0, .LNK_POL_CFG1, .LNK_LEG_BASE, .LNK_SUB_BASE, .LNK_REPL_BASE, .LNK_ROOM_BASE,
   .LNK_EGR_CTRL, .LNK_EGR_CNT, .LNK_SEL_CMD, .LNK_SEL_STAT, .LNK_RTX_QUEUE, .LNK_LOCAL_QUEUE, .LNK_CLASS_SHP0, .LNK_CLASS_SHP1,
   .LNK_TX_QUEUE, .LNK_TX_CNT]

/-- Registers of the chapters, part 5. -/
def RegName.part5 : List RegName :=
  [.LNK_PKT_BASE, .LNK_PKT_CMD, .LNK_PKT_STAT, .LNK_GRP_STAT, .LNK_LANE_STAT, .LNK_PORT_CFG, .LNK_PORT_MAC, .LNK_PORT_STAT,
   .LNK_PORT_EEE, .LNK_PORT_GCTL, .LNK_PORT_GBASE, .LNK_PORT_GSTAT, .LNK_PORT_CNT0, .LNK_PORT_CNT1, .LNK_MC_HASH, .LNK_LT_CFG,
   .LNK_MRG, .LNK_MRG_CNT, .LNK_GCL, .CMP_CTRL, .CMP_STATUS, .CMP_COMMIT, .CMP_CNT, .CMP_DONE_QUEUE, .CMP_REL_QUEUE, .CMP_HCOEF]

/-- Registers of the chapters, part 6. -/
def RegName.part6 : List RegName :=
  [.CMP_VCOEF, .CMP_CAN_CTRL, .CMP_CAN_SIZE, .CMP_CAN_OUT, .CMP_CAN_BG, .CMP_CAN_2110, .CMP_CAN_STAT, .CMP_INS_CTRL, .CMP_INS_SRC,
   .CMP_INS_SIZE, .CMP_INS_CROP, .CMP_INS_DST, .CMP_INS_FENCE, .CMP_INS_TARGET, .CMP_INS_STAT, .AUD_CTRL, .AUD_STATUS,
   .AUD_PORT_CFG, .AUD_PORT_ROUTE, .AUD_PORT_MASK, .AUD_PORT_RATIO, .AUD_PORT_STAT, .AUD_PORT_CNT, .AUD_TRIM, .AUD_CS_TX,
   .AUD_CS_RX]

/-- Registers of the chapters, part 7. -/
def RegName.part7 : List RegName :=
  [.AUD_NET_CFG, .AUD_NET_ID, .AUD_NET_CNT, .MEM_TIMING, .MEM_ERR, .MEM_CRC_CNT0, .MEM_CRC_CNT1, .MEM_CRC_LAST, .MEM_CHAN_CMD,
   .MEM_CHAN_RES, .MEM_STATUS, .MEM_CHAN_STAT, .MEM_BAND, .MEM_EXCL, .MEM_GUARD, .MEM_MAP_ERR, .MEM_QDESC_BASE, .MEM_Q_CMD,
   .MEM_Q_STAT, .MEM_Q_CNT, .VCC_CTRL, .VCC_STATUS, .VCC_JOBQ, .VCC_CNT, .VCC_GANG, .VCC_TAP_BASE]

/-- Every register, in the order of the chapters. -/
def RegName.all : List RegName :=
  RegName.part0 ++ RegName.part1 ++ RegName.part2 ++ RegName.part3 ++ RegName.part4 ++ RegName.part5 ++ RegName.part6 ++ RegName.part7

/-- The register tables: one entry for each register (the chapter of its block). -/
def RegName.info : RegName → RegInfo
  -- 01 R33
  | .DEV_ID => ⟨.DEV, 0x0, 0x0, 1, false, [⟨63, 48, .ro, 0x4C50⟩, ⟨47, 32, .ro, 0x7128⟩, ⟨31, 24, .ro, 0⟩, ⟨23, 20, .ro, 1⟩, ⟨19, 16, .ro, 0⟩, ⟨15, 8, .ro, 0x88⟩, ⟨7, 0, .ro, 4⟩]⟩
  | .DEV_ACCESS_ERR => ⟨.DEV, 0x8, 0x0, 1, false, [⟨63, 32, .rc, 0⟩]⟩
  | .DEV_ACCESS_LAST => ⟨.DEV, 0x10, 0x0, 1, false, [⟨56, 56, .ro, 0⟩, ⟨55, 48, .ro, 0⟩, ⟨47, 0, .ro, 0⟩]⟩
  | .DEV_STN_MAP => ⟨.DEV, 0x1000, 0x8, 128, false, [⟨16, 16, .ro, 0⟩, ⟨7, 0, .rw, 0⟩]⟩
  -- 17 R404
  | .DEV_OWNER => ⟨.DEV, 0x100, 0x0, 1, false, [⟨63, 63, .ro, 0⟩, ⟨55, 48, .ro, 0⟩, ⟨47, 32, .rw, 0x0064⟩, ⟨1, 1, .wo, 0⟩, ⟨0, 0, .wo, 0⟩]⟩
  | .DEV_LEASE => ⟨.DEV, 0x108, 0x0, 1, false, [⟨63, 63, .wo, 0⟩, ⟨31, 0, .ro, 0⟩]⟩
  | .DEV_HANDOVER => ⟨.DEV, 0x110, 0x0, 1, false, [⟨63, 63, .rw, 0⟩, ⟨62, 62, .ro, 0⟩, ⟨7, 0, .rw, 0⟩]⟩
  | .DEV_DELEGATE => ⟨.DEV, 0x118, 0x0, 1, false, [⟨3, 0, .rw, 0xF⟩]⟩
  | .DEV_OWN_CNT => ⟨.DEV, 0x120, 0x0, 1, false, [⟨63, 52, .rc, 0⟩, ⟨51, 40, .rc, 0⟩, ⟨39, 28, .rc, 0⟩, ⟨27, 16, .rc, 0⟩, ⟨15, 0, .rc, 0⟩]⟩
  | .DEV_IBA_QUEUE => ⟨.DEV, 0x128, 0x0, 1, false, [⟨20, 20, .rw, 0⟩, ⟨19, 0, .rw, 0⟩]⟩
  | .STN_LOAD_CMD => ⟨.STN, 0x0, 0x0, 1, false, [⟨63, 60, .wo, 0⟩, ⟨59, 52, .wo, 0⟩, ⟨51, 48, .wo, 0⟩, ⟨47, 0, .wo, 0⟩]⟩
  | .STN_LOAD_STAT => ⟨.STN, 0x8, 0x0, 1, false, [⟨63, 56, .ro, 0⟩, ⟨55, 52, .ro, 0⟩]⟩
  | .CTL_CMD => ⟨.CTL, 0x0, 0x0, 1, false, [⟨63, 60, .wo, 0⟩, ⟨59, 52, .wo, 0⟩, ⟨51, 51, .wo, 0⟩, ⟨50, 50, .wo, 0⟩, ⟨49, 49, .wo, 0⟩, ⟨47, 0, .wo, 0⟩]⟩
  | .CTL_STAT => ⟨.CTL, 0x8, 0x0, 1, false, [⟨63, 61, .ro, 0⟩, ⟨55, 52, .ro, 0⟩, ⟨51, 44, .ro, 0⟩, ⟨31, 0, .ro, 0⟩]⟩
  | .PWR_DATUM_CMD => ⟨.PWR, 0x800, 0x0, 1, false, [⟨63, 60, .wo, 0⟩, ⟨59, 52, .wo, 0⟩, ⟨47, 0, .wo, 0⟩]⟩
  | .PWR_DATUM_STAT => ⟨.PWR, 0x808, 0x0, 1, false, [⟨63, 56, .ro, 0⟩, ⟨55, 52, .ro, 0⟩, ⟨51, 51, .ro, 0⟩, ⟨50, 50, .ro, 0⟩, ⟨49, 49, .ro, 0⟩, ⟨31, 0, .ro, 0⟩]⟩
  -- 02 R61
  | .MTB_CTRL => ⟨.MTB, 0x0, 0x0, 1, false, [⟨23, 16, .rw, 0x7F⟩, ⟨8, 8, .rw, 0⟩, ⟨7, 7, .w1s, 0⟩, ⟨3, 3, .rw, 1⟩, ⟨2, 2, .wo, 0⟩, ⟨1, 1, .wo, 0⟩, ⟨0, 0, .wo, 0⟩]⟩
  | .MTB_STATUS => ⟨.MTB, 0x8, 0x0, 1, false, [⟨17, 16, .ro, 0⟩, ⟨15, 15, .ro, 0⟩, ⟨14, 14, .ro, 0⟩, ⟨13, 12, .ro, 0⟩, ⟨11, 11, .w1c, 0⟩, ⟨10, 10, .ro, 0⟩, ⟨9, 9, .w1c, 0⟩, ⟨8, 8, .w1c, 0⟩, ⟨7, 7, .w1c, 0⟩]⟩
  | .MTB_TIME_SEC => ⟨.MTB, 0x10, 0x0, 1, false, [⟨47, 0, .ro, 0⟩]⟩
  | .MTB_TIME_NS => ⟨.MTB, 0x18, 0x0, 1, false, [⟨63, 32, .ro, 0⟩, ⟨31, 16, .ro, 0⟩]⟩
  | .MTB_MTIME => ⟨.MTB, 0x20, 0x0, 1, false, [⟨63, 0, .ro, 0⟩]⟩
  | .MTB_SET_SEC => ⟨.MTB, 0x28, 0x0, 1, false, [⟨47, 0, .rw, 0⟩]⟩
  | .MTB_SET_NS => ⟨.MTB, 0x30, 0x0, 1, false, [⟨63, 32, .wo, 0⟩, ⟨31, 16, .wo, 0⟩]⟩
  | .MTB_SLEW_LIMIT => ⟨.MTB, 0x38, 0x0, 1, false, [⟨16, 0, .rw, 0x02710⟩]⟩
  | .MTB_VERNIER => ⟨.MTB, 0x40, 0x0, 1, false, [⟨39, 0, .rw, 0⟩]⟩
  | .MTB_PHASE_ADJ => ⟨.MTB, 0x48, 0x0, 1, false, [⟨63, 48, .rw, 0⟩, ⟨47, 0, .rw, 0⟩]⟩
  | .MTB_RATE_LEARNED => ⟨.MTB, 0x50, 0x0, 1, false, [⟨39, 0, .rw, 0⟩]⟩
  | .MTB_HOLD => ⟨.MTB, 0x58, 0x0, 1, false, [⟨63, 63, .rw, 1⟩, ⟨19, 16, .rw, 6⟩, ⟨15, 0, .rw, 0x07D0⟩]⟩
  | .MTB_TICK => ⟨.MTB, 0x60, 0x0, 1, false, [⟨57, 56, .ro, 1⟩, ⟨49, 48, .rw, 1⟩, ⟨47, 0, .ro, 0⟩]⟩
  | .MTB_PPS => ⟨.MTB, 0x68, 0x0, 1, false, [⟨63, 63, .rw, 0⟩, ⟨62, 62, .rw, 0⟩, ⟨31, 0, .rw, 0x05F5E100⟩]⟩
  | .MTB_PPS_IN_TS => ⟨.MTB, 0x70, 0x0, 1, false, [⟨63, 48, .ro, 0⟩, ⟨47, 16, .ro, 0⟩, ⟨15, 0, .ro, 0⟩]⟩
  | .MTB_TRANSIT_LEAD => ⟨.MTB, 0x78, 0x0, 1, false, [⟨15, 0, .rw, 0x0FA0⟩]⟩
  | .MTB_CLOCK_ID => ⟨.MTB, 0x80, 0x0, 1, false, [⟨63, 0, .rw, 0⟩]⟩
  | .MTB_PTP_QUEUE => ⟨.MTB, 0x88, 0x0, 1, false, [⟨19, 0, .rw, 0⟩]⟩
  | .MTB_RASTER_RATE => ⟨.MTB, 0x100, 0x20, 8, false, [⟨63, 63, .rw, 0⟩, ⟨55, 32, .rw, 0⟩, ⟨23, 0, .rw, 0⟩]⟩
  | .MTB_RASTER_GEOM => ⟨.MTB, 0x108, 0x20, 8, false, [⟨47, 32, .rw, 0⟩, ⟨0, 0, .rw, 0⟩]⟩
  | .MTB_RASTER_OFFSET => ⟨.MTB, 0x110, 0x20, 8, false, [⟨31, 0, .rw, 0⟩]⟩
  | .MTB_RASTER_PHASE => ⟨.MTB, 0x118, 0x20, 8, false, [⟨63, 16, .ro, 0⟩, ⟨15, 0, .ro, 0⟩]⟩
  | .MTB_ASYM => ⟨.MTB, 0x2000, 0x8, 512, false, [⟨63, 32, .rw, 0⟩, ⟨31, 0, .rw, 0⟩]⟩
  | .MTB_PTP_PORT => ⟨.MTB, 0x3000, 0x8, 512, false, [⟨63, 62, .rw, 0⟩, ⟨61, 61, .rw, 0⟩, ⟨60, 60, .rw, 0⟩, ⟨59, 58, .rw, 0⟩, ⟨55, 48, .rw, 0xFD⟩]⟩
  | .MTB_TRN_CTRL => ⟨.MTB, 0x8000, 0x20, 4096, false, [⟨63, 63, .rw, 0⟩, ⟨62, 62, .rw, 0⟩, ⟨61, 59, .rw, 0⟩, ⟨55, 40, .rw, 0⟩, ⟨39, 24, .rw, 0⟩, ⟨23, 0, .rw, 0⟩]⟩
  | .MTB_TRN_WHEN => ⟨.MTB, 0x8008, 0x20, 4096, false, [⟨63, 0, .rw, 0⟩]⟩
  | .MTB_TRN_ACT => ⟨.MTB, 0x8010, 0x20, 4096, false, [⟨63, 60, .rw, 0⟩, ⟨59, 0, .rw, 0⟩]⟩
  | .MTB_TRN_STAT => ⟨.MTB, 0x8018, 0x20, 4096, false, [⟨63, 32, .ro, 0⟩, ⟨31, 16, .ro, 0⟩, ⟨0, 0, .ro, 0⟩]⟩
  -- 10 R274
  | .DIS_CTRL => ⟨.DIS, 0x0, 0x0, 1, false, [⟨63, 63, .rw, 0⟩]⟩
  | .DIS_STATUS => ⟨.DIS, 0x8, 0x0, 1, false, [⟨2, 2, .w1c, 0⟩, ⟨1, 1, .w1c, 0⟩, ⟨0, 0, .w1c, 0⟩]⟩
  | .DIS_SCALE => ⟨.DIS, 0x10, 0x0, 1, false, [⟨16, 0, .ro, 0x10000⟩]⟩
  | .DIS_SET_BASE => ⟨.DIS, 0x18, 0x0, 1, false, [⟨47, 20, .rw, 0⟩]⟩
  | .DIS_UNIT_CMD => ⟨.DIS, 0x20, 0x0, 1, false, [⟨63, 62, .wo, 0⟩, ⟨61, 60, .wo, 0⟩, ⟨59, 52, .wo, 0⟩, ⟨6, 0, .wo, 0⟩]⟩
  | .DIS_UNIT_STAT => ⟨.DIS, 0x28, 0x0, 1, false, [⟨63, 56, .ro, 0⟩, ⟨55, 52, .ro, 0⟩, ⟨31, 0, .ro, 0⟩]⟩
  | .DIS_CNT => ⟨.DIS, 0x30, 0x0, 1, false, [⟨63, 48, .rc, 0⟩, ⟨47, 32, .rc, 0⟩, ⟨31, 16, .rc, 0⟩, ⟨15, 0, .rc, 0⟩]⟩
  | .DIS_LIST_CFG => ⟨.DIS, 0x1000, 0x20, 64, false, [⟨63, 63, .rw, 0⟩, ⟨47, 44, .rw, 0xF⟩, ⟨16, 0, .rw, 0⟩]⟩
  | .DIS_LIST_STN0 => ⟨.DIS, 0x1008, 0x20, 64, false, [⟨63, 0, .rw, 0⟩]⟩
  | .DIS_LIST_STN1 => ⟨.DIS, 0x1010, 0x20, 64, false, [⟨63, 0, .rw, 0⟩]⟩
  | .DIS_LIST_STAT => ⟨.DIS, 0x1018, 0x20, 64, false, [⟨63, 47, .ro, 0⟩, ⟨46, 46, .ro, 0⟩, ⟨31, 0, .ro, 0⟩]⟩
  | .DIS_STN_STATE => ⟨.DIS, 0x2000, 0x8, 128, false, [⟨63, 61, .ro, 0⟩, ⟨7, 0, .ro, 0⟩]⟩
  | .DIS_ACCT_CFG => ⟨.DIS, 0x100000, 0x40, 4096, false, [⟨63, 63, .rw, 0⟩, ⟨62, 62, .rw, 0⟩, ⟨61, 59, .rw, 0⟩, ⟨55, 48, .rw, 0⟩]⟩
  | .DIS_ACCT_GRANT0 => ⟨.DIS, 0x100008, 0x40, 4096, false, [⟨63, 32, .rw, 0⟩, ⟨31, 0, .rw, 0⟩]⟩
  | .DIS_ACCT_GRANT1 => ⟨.DIS, 0x100010, 0x40, 4096, false, [⟨63, 32, .rw, 0⟩, ⟨31, 0, .rw, 0⟩]⟩
  | .DIS_ACCT_LEFT0 => ⟨.DIS, 0x100018, 0x40, 4096, false, [⟨63, 32, .ro, 0⟩, ⟨31, 0, .ro, 0⟩]⟩
  | .DIS_ACCT_LEFT1 => ⟨.DIS, 0x100020, 0x40, 4096, false, [⟨63, 32, .ro, 0⟩, ⟨31, 0, .ro, 0⟩]⟩
  | .DIS_ACCT_STAT => ⟨.DIS, 0x100028, 0x40, 4096, false, [⟨63, 60, .ro, 0⟩, ⟨47, 32, .rc, 0⟩]⟩
  -- 15 R365
  | .INC_SRC => ⟨.INC, 0x0, 0x8, 4096, false, [⟨63, 63, .ro, 0⟩, ⟨62, 62, .ro, 0⟩, ⟨61, 61, .ro, 0⟩, ⟨60, 60, .ro, 0⟩, ⟨44, 40, .ro, 0⟩, ⟨12, 8, .rw, 0⟩, ⟨7, 0, .rw, 0⟩]⟩
  | .INC_CLAIM => ⟨.INC, 0x8000, 0x20, 18, false, [⟨11, 0, .rc, 0⟩]⟩
  | .INC_EOI => ⟨.INC, 0x8008, 0x20, 18, false, [⟨11, 0, .wo, 0⟩]⟩
  | .INC_TGT_STAT => ⟨.INC, 0x8010, 0x20, 18, false, [⟨63, 56, .ro, 0⟩, ⟨55, 51, .ro, 0⟩, ⟨47, 36, .ro, 0⟩, ⟨11, 0, .ro, 0⟩]⟩
  | .INC_SW_SET => ⟨.INC, 0x9000, 0x8, 4, false, [⟨63, 0, .w1s, 0⟩]⟩
  | .INC_CNT => ⟨.INC, 0x9100, 0x0, 1, false, [⟨63, 48, .rc, 0⟩, ⟨47, 32, .rc, 0⟩, ⟨31, 16, .rc, 0⟩, ⟨15, 0, .rc, 0⟩]⟩
  | .INC_DB_CTRL => ⟨.INC, 0x9200, 0x8, 2, false, [⟨63, 63, .rw, 0⟩, ⟨10, 0, .rw, 0⟩]⟩
  | .INC_QWATCH => ⟨.INC, 0x10000, 0x8, 2048, false, [⟨63, 63, .rw, 0⟩, ⟨19, 0, .rw, 0⟩]⟩
  -- 16 R382
  | .LOG_CTRL => ⟨.LOG, 0x0, 0x0, 1, false, [⟨1, 0, .rw, 0⟩]⟩
  | .LOG_STATUS => ⟨.LOG, 0x8, 0x0, 1, false, [⟨63, 63, .ro, 0⟩, ⟨62, 62, .ro, 0⟩, ⟨61, 61, .ro, 0⟩, ⟨60, 60, .w1c, 0⟩, ⟨59, 59, .w1c, 0⟩, ⟨58, 58, .w1c, 0⟩, ⟨57, 57, .w1c, 0⟩, ⟨44, 32, .ro, 0⟩, ⟨31, 0, .ro, 0⟩]⟩
  | .LOG_CMD => ⟨.LOG, 0x10, 0x0, 1, false, [⟨63, 60, .wo, 0⟩, ⟨59, 52, .wo, 0⟩, ⟨9, 0, .wo, 0⟩]⟩
  | .LOG_CMD_STAT => ⟨.LOG, 0x18, 0x0, 1, false, [⟨63, 56, .ro, 0⟩, ⟨55, 52, .ro, 0⟩, ⟨31, 0, .ro, 0⟩]⟩
  | .LOG_CNT => ⟨.LOG, 0x20, 0x0, 1, false, [⟨63, 48, .rc, 0⟩, ⟨47, 32, .rc, 0⟩, ⟨31, 16, .rc, 0⟩]⟩
  | .LOG_FLASH => ⟨.LOG, 0x28, 0x0, 1, false, [⟨63, 63, .rw, 0⟩, ⟨62, 62, .rw, 0⟩, ⟨31, 26, .rw, 0⟩]⟩
  | .LOG_WRPTR => ⟨.LOG, 0x30, 0x0, 1, false, [⟨51, 32, .ro, 0⟩, ⟨11, 0, .ro, 0⟩]⟩
  | .LOG_RD_ADDR => ⟨.LOG, 0x38, 0x0, 1, false, [⟨47, 0, .rw, 0⟩]⟩
  | .LOG_RING => ⟨.LOG, 0x100000, 0x8, 32768, false, [⟨63, 0, .ro, 0⟩]⟩
  -- 18 R421
  | .PWR_STATUS => ⟨.PWR, 0x0, 0x0, 1, false, [⟨63, 63, .w1c, 0⟩, ⟨62, 62, .ro, 0⟩, ⟨61, 61, .w1c, 0⟩, ⟨60, 60, .w1c, 0⟩, ⟨59, 59, .w1c, 0⟩, ⟨58, 58, .ro, 0⟩]⟩
  | .PWR_CAP => ⟨.PWR, 0x8, 0x0, 1, false, [⟨63, 48, .rw, 0x0514⟩, ⟨47, 31, .rw, 0x04000⟩]⟩
  | .PWR_MEAS => ⟨.PWR, 0x10, 0x0, 1, false, [⟨63, 48, .ro, 0⟩, ⟨47, 40, .ro, 0⟩, ⟨39, 30, .ro, 0x2EE⟩]⟩
  | .PWR_ALIVE => ⟨.PWR, 0x18, 0x0, 1, false, [⟨63, 63, .wo, 0⟩, ⟨15, 0, .rw, 0x0064⟩]⟩
  | .PWR_THERM => ⟨.PWR, 0x20, 0x0, 1, false, [⟨63, 56, .rw, 0x5F⟩]⟩
  | .PWR_BOOT_STAT => ⟨.PWR, 0x28, 0x0, 1, false, [⟨63, 62, .ro, 0⟩, ⟨31, 0, .ro, 0⟩]⟩
  | .PWR_GATE_CFG => ⟨.PWR, 0x30, 0x0, 1, false, [⟨63, 48, .rw, 0x0064⟩]⟩
  | .PWR_GATE_STN0 => ⟨.PWR, 0x38, 0x0, 1, false, [⟨63, 0, .rw, 0⟩]⟩
  | .PWR_GATE_STN1 => ⟨.PWR, 0x40, 0x0, 1, false, [⟨63, 0, .rw, 0⟩]⟩
  | .PWR_GATE_VCC => ⟨.PWR, 0x48, 0x0, 1, false, [⟨63, 0, .rw, 0⟩]⟩
  | .PWR_RAIL => ⟨.PWR, 0x100, 0x8, 8, false, [⟨63, 63, .rw, 0⟩, ⟨54, 48, .rw, 0⟩, ⟨47, 32, .ro, 0⟩, ⟨31, 16, .ro, 0⟩]⟩
  -- 14 R352
  | .SEC_STATUS => ⟨.SEC, 0x0, 0x0, 1, false, [⟨63, 63, .ro, 0⟩, ⟨62, 62, .ro, 0⟩, ⟨61, 61, .ro, 0⟩, ⟨60, 60, .ro, 0⟩]⟩
  | .SEC_ALARM_EN => ⟨.SEC, 0x8, 0x0, 1, false, [⟨3, 0, .rw, 0xF⟩]⟩
  | .SEC_ALARM_STAT => ⟨.SEC, 0x10, 0x0, 1, false, [⟨3, 0, .w1c, 0⟩]⟩
  | .SEC_RNG => ⟨.SEC, 0x18, 0x0, 1, false, [⟨63, 0, .ro, 0⟩]⟩
  | .SEC_KEY_BASE => ⟨.SEC, 0x20, 0x0, 1, false, [⟨47, 20, .rw, 0⟩]⟩
  | .SEC_KEY_CMD => ⟨.SEC, 0x28, 0x0, 1, false, [⟨63, 60, .wo, 0⟩, ⟨59, 52, .wo, 0⟩, ⟨51, 48, .wo, 0⟩, ⟨47, 32, .wo, 0⟩]⟩
  | .SEC_KEY_STAT => ⟨.SEC, 0x30, 0x0, 1, false, [⟨63, 56, .ro, 0⟩, ⟨55, 52, .ro, 0⟩, ⟨31, 0, .ro, 0⟩]⟩
  | .SEC_REQ_QUEUE => ⟨.SEC, 0x38, 0x0, 1, false, [⟨20, 20, .rw, 0⟩, ⟨19, 0, .rw, 0⟩]⟩
  | .SEC_CNT => ⟨.SEC, 0x40, 0x0, 1, false, [⟨63, 48, .rc, 0⟩, ⟨47, 32, .rc, 0⟩, ⟨31, 16, .rc, 0⟩, ⟨15, 0, .rc, 0⟩]⟩
  | .SEC_KEY_DATA => ⟨.SEC, 0x100, 0x8, 9, false, [⟨63, 0, .wo, 0⟩]⟩
  | .SEC_LOCK => ⟨.SEC, 0x1000, 0x8, 96, false, [⟨63, 61, .ro, 0⟩, ⟨60, 22, .ro, 0⟩, ⟨21, 10, .ro, 0⟩]⟩
  -- 03 R90
  | .LNK_ING_CTRL => ⟨.LNK, 0x1000, 0x0, 1, false, [⟨63, 63, .rw, 0⟩, ⟨55, 48, .rw, 0x14⟩]⟩
  | .LNK_ING_CNT => ⟨.LNK, 0x1008, 0x0, 1, false, [⟨63, 48, .rc, 0⟩, ⟨47, 32, .rc, 0⟩, ⟨31, 16, .rc, 0⟩, ⟨15, 0, .rc, 0⟩]⟩
  | .LNK_DSCP_COLOUR => ⟨.LNK, 0x1010, 0x8, 2, false, [⟨63, 0, .rw, 0⟩]⟩
  | .LNK_BUF_RET => ⟨.LNK, 0x1020, 0x0, 1, false, [⟨47, 0, .wo, 0⟩]⟩
  | .LNK_EXC_QUEUE => ⟨.LNK, 0x1100, 0x8, 16, false, [⟨63, 48, .rw, 0⟩, ⟨47, 36, .rw, 0⟩, ⟨20, 20, .rw, 0⟩, ⟨19, 0, .rw, 0⟩]⟩
  | .LNK_KEY_BASE => ⟨.LNK, 0x1200, 0x0, 1, true, [⟨47, 20, .rw, 0⟩]⟩
  | .LNK_STREAM_BASE => ⟨.LNK, 0x1208, 0x0, 1, true, [⟨47, 20, .rw, 0⟩]⟩
  | .LNK_CRYPTO_BASE => ⟨.LNK, 0x1210, 0x0, 1, true, [⟨47, 20, .rw, 0⟩]⟩
  | .LNK_TMAP_BASE => ⟨.LNK, 0x1218, 0x0, 1, true, [⟨47, 20, .rw, 0⟩]⟩
  | .LNK_FLOW_CMD => ⟨.LNK, 0x1220, 0x0, 1, true, [⟨63, 60, .wo, 0⟩, ⟨59, 52, .wo, 0⟩, ⟨19, 0, .wo, 0⟩]⟩
  | .LNK_FLOW_STAT => ⟨.LNK, 0x1228, 0x0, 1, true, [⟨63, 56, .ro, 0⟩, ⟨55, 52, .ro, 0⟩, ⟨31, 0, .ro, 0⟩]⟩
  | .LNK_STOP_CMD => ⟨.LNK, 0x1230, 0x0, 1, true, [⟨63, 61, .wo, 0⟩, ⟨60, 53, .wo, 0⟩, ⟨19, 0, .wo, 0⟩]⟩
  | .LNK_STOP_STAT => ⟨.LNK, 0x1238, 0x0, 1, true, [⟨63, 56, .ro, 0⟩, ⟨55, 52, .ro, 0⟩, ⟨31, 0, .ro, 0⟩]⟩
  | .LNK_POL_CFG0 => ⟨.LNK, 0x100000, 0x10, 65535, false, [⟨63, 63, .rw, 0⟩, ⟨62, 62, .rw, 0⟩, ⟨55, 28, .rw, 0⟩, ⟨27, 0, .rw, 0⟩]⟩
  | .LNK_POL_CFG1 => ⟨.LNK, 0x100008, 0x10, 65535, false, [⟨63, 40, .rw, 0⟩, ⟨39, 16, .rw, 0⟩]⟩
  -- 04 R117
  | .LNK_LEG_BASE => ⟨.LNK, 0x1240, 0x0, 1, true, [⟨47, 20, .rw, 0⟩]⟩
  | .LNK_SUB_BASE => ⟨.LNK, 0x1248, 0x0, 1, true, [⟨47, 20, .rw, 0⟩]⟩
  | .LNK_REPL_BASE => ⟨.LNK, 0x1250, 0x0, 1, true, [⟨47, 20, .rw, 0⟩]⟩
  | .LNK_ROOM_BASE => ⟨.LNK, 0x1258, 0x0, 1, true, [⟨47, 20, .rw, 0⟩]⟩
  | .LNK_EGR_CTRL => ⟨.LNK, 0x1400, 0x0, 1, false, [⟨63, 63, .rw, 0⟩, ⟨55, 48, .rw, 0x14⟩, ⟨47, 32, .rw, 0x0064⟩, ⟨15, 0, .rw, 0x0400⟩]⟩
  | .LNK_EGR_CNT => ⟨.LNK, 0x1408, 0x0, 1, false, [⟨63, 48, .rc, 0⟩, ⟨47, 32, .rc, 0⟩, ⟨31, 16, .rc, 0⟩, ⟨15, 0, .rc, 0⟩]⟩
  | .LNK_SEL_CMD => ⟨.LNK, 0x1410, 0x0, 1, false, [⟨63, 60, .wo, 0⟩, ⟨59, 52, .wo, 0⟩, ⟨51, 48, .wo, 0⟩, ⟨47, 44, .wo, 0⟩, ⟨23, 0, .wo, 0⟩]⟩
  | .LNK_SEL_STAT => ⟨.LNK, 0x1418, 0x0, 1, false, [⟨63, 56, .ro, 0⟩, ⟨55, 52, .ro, 0⟩, ⟨31, 0, .ro, 0⟩]⟩
  | .LNK_RTX_QUEUE => ⟨.LNK, 0x1420, 0x0, 1, false, [⟨20, 20, .rw, 0⟩, ⟨19, 0, .rw, 0⟩]⟩
  | .LNK_LOCAL_QUEUE => ⟨.LNK, 0x1428, 0x0, 1, false, [⟨20, 20, .rw, 0⟩, ⟨19, 0, .rw, 0⟩]⟩
  | .LNK_CLASS_SHP0 => ⟨.LNK, 0x2000, 0x10, 256, false, [⟨55, 28, .rw, 0⟩, ⟨27, 0, .rw, 0⟩]⟩
  | .LNK_CLASS_SHP1 => ⟨.LNK, 0x2008, 0x10, 256, false, [⟨63, 40, .rw, 0⟩, ⟨39, 16, .rw, 0⟩]⟩
  -- 12 R312
  | .LNK_TX_QUEUE => ⟨.LNK, 0x0, 0x0, 1, false, [⟨20, 20, .rw, 0⟩, ⟨19, 0, .rw, 0⟩]⟩
  | .LNK_TX_CNT => ⟨.LNK, 0x8, 0x0, 1, false, [⟨63, 48, .rc, 0⟩, ⟨47, 32, .rc, 0⟩]⟩
  | .LNK_PKT_BASE => ⟨.LNK, 0x10, 0x0, 1, false, [⟨47, 20, .rw, 0⟩]⟩
  | .LNK_PKT_CMD => ⟨.LNK, 0x18, 0x0, 1, false, [⟨63, 60, .wo, 0⟩, ⟨59, 52, .wo, 0⟩, ⟨7, 0, .wo, 0⟩]⟩
  | .LNK_PKT_STAT => ⟨.LNK, 0x20, 0x0, 1, false, [⟨63, 56, .ro, 0⟩, ⟨55, 52, .ro, 0⟩, ⟨31, 0, .ro, 0⟩]⟩
  | .LNK_GRP_STAT => ⟨.LNK, 0x28, 0x0, 1, false, [⟨63, 63, .ro, 0⟩]⟩
  | .LNK_LANE_STAT => ⟨.LNK, 0x800, 0x8, 32, false, [⟨63, 63, .ro, 0⟩, ⟨62, 62, .ro, 0⟩, ⟨47, 32, .rc, 0⟩, ⟨31, 0, .rc, 0⟩]⟩
  | .LNK_PORT_CFG => ⟨.LNK, 0x3000, 0x80, 32, false, [⟨63, 63, .rw, 0⟩, ⟨62, 60, .rw, 0⟩, ⟨59, 58, .rw, 0⟩, ⟨57, 56, .rw, 0⟩, ⟨55, 54, .rw, 0⟩, ⟨53, 53, .rw, 0⟩, ⟨52, 50, .rw, 7⟩, ⟨49, 36, .rw, 0x05EE⟩]⟩
  | .LNK_PORT_MAC => ⟨.LNK, 0x3008, 0x80, 32, false, [⟨47, 0, .rw, 0⟩]⟩
  | .LNK_PORT_STAT => ⟨.LNK, 0x3010, 0x80, 32, false, [⟨63, 63, .ro, 0⟩, ⟨62, 62, .w1c, 0⟩, ⟨61, 61, .w1c, 0⟩, ⟨60, 60, .ro, 0⟩, ⟨59, 59, .ro, 0⟩]⟩
  | .LNK_PORT_EEE => ⟨.LNK, 0x3018, 0x80, 32, false, [⟨63, 63, .rw, 0⟩, ⟨31, 16, .rw, 0⟩, ⟨15, 0, .rw, 0x000A⟩]⟩
  | .LNK_PORT_GCTL => ⟨.LNK, 0x3020, 0x80, 32, false, [⟨63, 63, .rw, 0⟩, ⟨62, 62, .rw, 0⟩, ⟨61, 61, .w1s, 0⟩, ⟨60, 52, .rw, 0⟩, ⟨31, 0, .rw, 0⟩]⟩
  | .LNK_PORT_GBASE => ⟨.LNK, 0x3028, 0x80, 32, false, [⟨63, 0, .rw, 0⟩]⟩
  | .LNK_PORT_GSTAT => ⟨.LNK, 0x3030, 0x80, 32, false, [⟨63, 63, .ro, 0⟩, ⟨62, 62, .ro, 0⟩, ⟨61, 54, .ro, 0⟩, ⟨53, 46, .ro, 0xFF⟩, ⟨31, 0, .ro, 0⟩]⟩
  | .LNK_PORT_CNT0 => ⟨.LNK, 0x3038, 0x80, 32, false, [⟨63, 48, .rc, 0⟩, ⟨47, 32, .rc, 0⟩, ⟨31, 16, .rc, 0⟩, ⟨15, 0, .rc, 0⟩]⟩
  | .LNK_PORT_CNT1 => ⟨.LNK, 0x3040, 0x80, 32, false, [⟨63, 48, .rc, 0⟩, ⟨47, 32, .rc, 0⟩, ⟨31, 16, .rc, 0⟩, ⟨15, 0, .rc, 0⟩]⟩
  | .LNK_MC_HASH => ⟨.LNK, 0x4000, 0x8, 2048, false, [⟨63, 0, .rw, 0⟩]⟩
  | .LNK_LT_CFG => ⟨.LNK, 0x18000, 0x8, 256, false, [⟨63, 63, .rw, 0⟩, ⟨62, 62, .rw, 0⟩, ⟨61, 61, .rw, 0⟩, ⟨31, 16, .rw, 0x03E8⟩]⟩
  | .LNK_MRG => ⟨.LNK, 0x24000, 0x10, 256, false, [⟨63, 63, .rw, 0⟩, ⟨59, 40, .rw, 0⟩, ⟨39, 20, .rw, 0⟩]⟩
  | .LNK_MRG_CNT => ⟨.LNK, 0x24008, 0x10, 256, false, [⟨63, 32, .rc, 0⟩, ⟨31, 16, .rc, 0⟩]⟩
  | .LNK_GCL => ⟨.LNK, 0x80000, 0x8, 16384, false, [⟨63, 56, .rw, 0xFF⟩, ⟨31, 0, .rw, 0⟩]⟩
  -- 07 R201
  | .CMP_CTRL => ⟨.CMP, 0x0, 0x0, 1, false, [⟨63, 63, .rw, 0⟩, ⟨15, 0, .rw, 0x1388⟩]⟩
  | .CMP_STATUS => ⟨.CMP, 0x8, 0x0, 1, false, [⟨63, 61, .ro, 0⟩]⟩
  | .CMP_COMMIT => ⟨.CMP, 0x10, 0x0, 1, false, [⟨9, 0, .wo, 0⟩]⟩
  | .CMP_CNT => ⟨.CMP, 0x18, 0x0, 1, false, [⟨63, 48, .rc, 0⟩, ⟨47, 32, .rc, 0⟩, ⟨31, 16, .rc, 0⟩, ⟨15, 0, .rc, 0⟩]⟩
  | .CMP_DONE_QUEUE => ⟨.CMP, 0x20, 0x0, 1, false, [⟨20, 20, .rw, 0⟩, ⟨19, 0, .rw, 0⟩]⟩
  | .CMP_REL_QUEUE => ⟨.CMP, 0x28, 0x0, 1, false, [⟨20, 20, .rw, 0⟩, ⟨19, 0, .rw, 0⟩]⟩
  | .CMP_HCOEF => ⟨.CMP, 0x10000, 0x8, 512, false, [⟨63, 0, .rw, 0⟩]⟩
  | .CMP_VCOEF => ⟨.CMP, 0x20000, 0x8, 256, false, [⟨63, 0, .rw, 0⟩]⟩
  | .CMP_CAN_CTRL => ⟨.CMP, 0x80000, 0x40, 1024, false, [⟨63, 63, .rw, 0⟩, ⟨62, 60, .rw, 0⟩, ⟨59, 58, .rw, 0⟩, ⟨57, 54, .rw, 0⟩, ⟨53, 52, .rw, 0⟩, ⟨51, 51, .rw, 0⟩, ⟨49, 48, .rw, 0⟩, ⟨47, 36, .rw, 0⟩]⟩
  | .CMP_CAN_SIZE => ⟨.CMP, 0x80008, 0x40, 1024, false, [⟨63, 48, .rw, 0⟩, ⟨47, 32, .rw, 0⟩, ⟨31, 0, .rw, 0⟩]⟩
  | .CMP_CAN_OUT => ⟨.CMP, 0x80010, 0x40, 1024, false, [⟨63, 48, .rw, 0⟩, ⟨47, 0, .rw, 0⟩]⟩
  | .CMP_CAN_BG => ⟨.CMP, 0x80018, 0x40, 1024, false, [⟨47, 32, .rw, 0⟩, ⟨31, 16, .rw, 0⟩, ⟨15, 0, .rw, 0⟩]⟩
  | .CMP_CAN_2110 => ⟨.CMP, 0x80020, 0x40, 1024, false, [⟨63, 63, .rw, 0⟩, ⟨62, 59, .rw, 0⟩, ⟨58, 51, .rw, 0⟩]⟩
  | .CMP_CAN_STAT => ⟨.CMP, 0x80028, 0x40, 1024, false, [⟨63, 62, .ro, 0⟩, ⟨61, 61, .w1c, 0⟩, ⟨60, 60, .ro, 0⟩, ⟨47, 0, .ro, 0⟩]⟩
  | .CMP_INS_CTRL => ⟨.CMP, 0x100000, 0x40, 65536, false, [⟨63, 63, .rw, 0⟩, ⟨62, 59, .rw, 0⟩, ⟨58, 55, .rw, 0⟩, ⟨54, 53, .rw, 0⟩, ⟨52, 52, .rw, 0⟩, ⟨51, 44, .rw, 0xFF⟩, ⟨43, 43, .rw, 0⟩]⟩
  | .CMP_INS_SRC => ⟨.CMP, 0x100008, 0x40, 65536, false, [⟨47, 0, .rw, 0⟩]⟩
  | .CMP_INS_SIZE => ⟨.CMP, 0x100010, 0x40, 65536, false, [⟨63, 48, .rw, 0⟩, ⟨47, 32, .rw, 0⟩]⟩
  | .CMP_INS_CROP => ⟨.CMP, 0x100018, 0x40, 65536, false, [⟨63, 48, .rw, 0⟩, ⟨47, 32, .rw, 0⟩, ⟨31, 16, .rw, 0⟩, ⟨15, 0, .rw, 0⟩]⟩
  | .CMP_INS_DST => ⟨.CMP, 0x100020, 0x40, 65536, false, [⟨63, 48, .rw, 0⟩, ⟨47, 32, .rw, 0⟩, ⟨31, 16, .rw, 0⟩, ⟨15, 0, .rw, 0⟩]⟩
  | .CMP_INS_FENCE => ⟨.CMP, 0x100028, 0x40, 65536, false, [⟨47, 0, .rw, 0⟩]⟩
  | .CMP_INS_TARGET => ⟨.CMP, 0x100030, 0x40, 65536, false, [⟨63, 0, .rw, 0⟩]⟩
  | .CMP_INS_STAT => ⟨.CMP, 0x100038, 0x40, 65536, false, [⟨63, 32, .ro, 0⟩, ⟨31, 31, .w1c, 0⟩, ⟨30, 30, .ro, 0⟩, ⟨29, 29, .ro, 0⟩, ⟨28, 28, .ro, 0⟩, ⟨27, 24, .ro, 0⟩]⟩
  -- 08 R226
  | .AUD_CTRL => ⟨.AUD, 0x0, 0x0, 1, false, [⟨63, 63, .rw, 0⟩, ⟨59, 48, .rw, 0⟩]⟩
  | .AUD_STATUS => ⟨.AUD, 0x8, 0x0, 1, false, [⟨63, 61, .ro, 0⟩]⟩
  | .AUD_PORT_CFG => ⟨.AUD, 0x100, 0x40, 8, false, [⟨63, 63, .rw, 0⟩, ⟨62, 61, .rw, 0⟩, ⟨60, 59, .rw, 0⟩, ⟨58, 57, .rw, 0⟩, ⟨56, 52, .rw, 0⟩, ⟨51, 50, .rw, 0⟩, ⟨49, 49, .rw, 0⟩, ⟨48, 48, .rw, 0⟩, ⟨47, 47, .rw, 0⟩, ⟨46, 46, .rw, 0⟩, ⟨45, 45, .rw, 0⟩, ⟨44, 44, .rw, 0⟩, ⟨43, 43, .rw, 0⟩]⟩
  | .AUD_PORT_ROUTE => ⟨.AUD, 0x108, 0x40, 8, false, [⟨63, 44, .rw, 0xFFFFF⟩, ⟨43, 24, .rw, 0xFFFFF⟩, ⟨23, 4, .rw, 0xFFFFF⟩]⟩
  | .AUD_PORT_MASK => ⟨.AUD, 0x110, 0x40, 8, false, [⟨63, 32, .rw, 0xFFFFFFFF⟩, ⟨31, 0, .rw, 0xFFFFFFFF⟩]⟩
  | .AUD_PORT_RATIO => ⟨.AUD, 0x118, 0x40, 8, false, [⟨39, 0, .ro, 0⟩]⟩
  | .AUD_PORT_STAT => ⟨.AUD, 0x120, 0x40, 8, false, [⟨63, 63, .ro, 0⟩, ⟨62, 62, .w1c, 0⟩, ⟨61, 61, .w1c, 0⟩, ⟨60, 60, .w1c, 0⟩]⟩
  | .AUD_PORT_CNT => ⟨.AUD, 0x128, 0x40, 8, false, [⟨63, 48, .rc, 0⟩, ⟨47, 32, .rc, 0⟩, ⟨31, 16, .rc, 0⟩, ⟨15, 8, .rc, 0⟩, ⟨7, 0, .rc, 0⟩]⟩
  | .AUD_TRIM => ⟨.AUD, 0x1000, 0x8, 256, false, [⟨16, 16, .rw, 0⟩, ⟨15, 0, .rw, 0x4000⟩]⟩
  | .AUD_CS_TX => ⟨.AUD, 0x2000, 0x8, 48, false, [⟨63, 0, .rw, 0⟩]⟩
  | .AUD_CS_RX => ⟨.AUD, 0x2200, 0x8, 48, false, [⟨63, 0, .ro, 0⟩]⟩
  | .AUD_NET_CFG => ⟨.AUD, 0x3000, 0x20, 16, false, [⟨63, 63, .rw, 0⟩, ⟨62, 59, .rw, 0⟩, ⟨58, 51, .rw, 0⟩, ⟨50, 50, .rw, 0⟩, ⟨49, 49, .rw, 0⟩, ⟨48, 43, .rw, 0⟩, ⟨42, 23, .rw, 0⟩]⟩
  | .AUD_NET_ID => ⟨.AUD, 0x3008, 0x20, 16, false, [⟨63, 32, .rw, 0⟩, ⟨31, 25, .rw, 0⟩, ⟨15, 0, .ro, 0⟩]⟩
  | .AUD_NET_CNT => ⟨.AUD, 0x3010, 0x20, 16, false, [⟨63, 48, .rc, 0⟩, ⟨47, 32, .rc, 0⟩, ⟨31, 16, .rc, 0⟩, ⟨15, 15, .w1c, 0⟩]⟩
  -- 13 R334
  | .MEM_TIMING => ⟨.MEM, 0x0, 0x0, 1, false, [⟨63, 48, .rw, 0x00C8⟩, ⟨47, 32, .rw, 0x0064⟩, ⟨31, 28, .rw, 0xC⟩]⟩
  | .MEM_ERR => ⟨.MEM, 0x8, 0x0, 1, false, [⟨63, 48, .rc, 0⟩, ⟨47, 32, .rc, 0⟩, ⟨31, 16, .rc, 0⟩, ⟨15, 0, .rc, 0⟩]⟩
  | .MEM_CRC_CNT0 => ⟨.MEM, 0x10, 0x0, 1, false, [⟨63, 48, .rc, 0⟩, ⟨47, 32, .rc, 0⟩, ⟨31, 16, .rc, 0⟩, ⟨15, 0, .rc, 0⟩]⟩
  | .MEM_CRC_CNT1 => ⟨.MEM, 0x18, 0x0, 1, false, [⟨63, 48, .rc, 0⟩, ⟨47, 32, .rc, 0⟩, ⟨31, 16, .rc, 0⟩, ⟨15, 0, .rc, 0⟩]⟩
  | .MEM_CRC_LAST => ⟨.MEM, 0x20, 0x0, 1, false, [⟨63, 60, .ro, 0⟩, ⟨59, 59, .ro, 0⟩, ⟨55, 52, .ro, 0⟩, ⟨51, 48, .ro, 0⟩, ⟨47, 0, .ro, 0⟩]⟩
  | .MEM_CHAN_CMD => ⟨.MEM, 0x28, 0x0, 1, false, [⟨63, 60, .wo, 0⟩, ⟨59, 52, .wo, 0⟩, ⟨2, 0, .wo, 0⟩]⟩
  | .MEM_CHAN_RES => ⟨.MEM, 0x30, 0x0, 1, false, [⟨63, 56, .ro, 0⟩, ⟨55, 52, .ro, 0⟩]⟩
  | .MEM_STATUS => ⟨.MEM, 0x38, 0x0, 1, false, [⟨63, 32, .rc, 0⟩]⟩
  | .MEM_CHAN_STAT => ⟨.MEM, 0x100, 0x8, 8, false, [⟨63, 61, .ro, 4⟩, ⟨15, 0, .ro, 0⟩]⟩
  | .MEM_BAND => ⟨.MEM, 0x1000, 0x8, 24, true, [⟨63, 63, .rw, 0⟩, ⟨62, 61, .rw, 1⟩, ⟨60, 60, .ro, 0⟩, ⟨56, 50, .ro, 0⟩, ⟨49, 43, .ro, 0⟩, ⟨42, 36, .ro, 0⟩, ⟨35, 29, .ro, 0⟩]⟩
  | .MEM_EXCL => ⟨.MEM, 0x1100, 0x8, 4, true, [⟨63, 0, .rw, 0⟩]⟩
  | .MEM_GUARD => ⟨.MEM, 0x1200, 0x8, 32, true, [⟨63, 63, .rw, 0⟩, ⟨47, 20, .rw, 0⟩, ⟨19, 0, .rw, 0⟩]⟩
  | .MEM_MAP_ERR => ⟨.MEM, 0x1300, 0x0, 1, true, [⟨63, 32, .rc, 0⟩]⟩
  -- 11 R290
  | .MEM_QDESC_BASE => ⟨.MEM, 0x4000, 0x0, 1, false, [⟨47, 20, .rw, 0⟩]⟩
  | .MEM_Q_CMD => ⟨.MEM, 0x4008, 0x0, 1, false, [⟨63, 60, .wo, 0⟩, ⟨59, 52, .wo, 0⟩, ⟨19, 0, .wo, 0⟩]⟩
  | .MEM_Q_STAT => ⟨.MEM, 0x4010, 0x0, 1, false, [⟨63, 56, .ro, 0⟩, ⟨55, 52, .ro, 0⟩, ⟨31, 0, .ro, 0⟩]⟩
  | .MEM_Q_CNT => ⟨.MEM, 0x4018, 0x0, 1, false, [⟨63, 48, .rc, 0⟩, ⟨47, 32, .rc, 0⟩, ⟨31, 16, .rc, 0⟩, ⟨15, 0, .rc, 0⟩]⟩
  -- 05 R148
  | .VCC_CTRL => ⟨.VCC, 0x0, 0x0, 1, false, [⟨63, 63, .rw, 0⟩, ⟨1, 0, .rw, 0⟩]⟩
  | .VCC_STATUS => ⟨.VCC, 0x8, 0x0, 1, false, [⟨63, 61, .ro, 0⟩, ⟨59, 48, .ro, 0⟩, ⟨31, 0, .ro, 0⟩]⟩
  | .VCC_JOBQ => ⟨.VCC, 0x10, 0x8, 4, false, [⟨20, 20, .rw, 0⟩, ⟨19, 0, .rw, 0⟩]⟩
  | .VCC_CNT => ⟨.VCC, 0x30, 0x0, 1, false, [⟨63, 32, .rc, 0⟩, ⟨31, 16, .rc, 0⟩, ⟨15, 0, .rc, 0⟩]⟩
  | .VCC_GANG => ⟨.VCC, 0x100, 0x8, 16, true, [⟨63, 63, .rw, 0⟩, ⟨62, 62, .ro, 0⟩, ⟨50, 48, .rw, 0⟩, ⟨47, 0, .rw, 0⟩]⟩
  | .VCC_TAP_BASE => ⟨.VCC, 0x200, 0x0, 1, true, [⟨47, 20, .rw, 0⟩]⟩

/-- A named field of a register. -/
structure RegField where
  reg : RegName
  hi : Nat
  lo : Nat
  deriving DecidableEq, Repr

/-- A register within the device: name, number of its block among the blocks of that kind, index. -/
structure RegAddr where
  name : RegName
  unit : Nat
  idx : Nat
  deriving DecidableEq, Repr

/-- The byte address of a register (00 R8). -/
def RegAddr.addr (r : RegAddr) : Nat :=
  0xFF0000000000 + (r.name.info.blk.span.1 + r.unit) * 0x1000000 + r.name.info.off + r.name.info.stride * r.idx

/-- Does the register stand at offset `o` of a block of its kind; at which index? -/
def RegInfo.at? (i : RegInfo) (o : Nat) : Option Nat :=
  if o < i.off then none
  else if i.stride = 0 then (if o = i.off then some 0 else none)
  else if (o - i.off) % i.stride = 0 ∧ (o - i.off) / i.stride < i.count then some ((o - i.off) / i.stride) else none

/-- The register of a list that stands at block index `b` and offset `o`. -/
def locateIn (b o : Nat) : List RegName → Option RegAddr
  | [] => none
  | n :: ns =>
    let i := n.info
    let (b0, k) := i.blk.span
    if b0 ≤ b ∧ b < b0 + k ∧ (i.firstOnly = false ∨ b = b0) then
      match i.at? o with
      | some j => some ⟨n, b - b0, j⟩
      | none => locateIn b o ns
    else locateIn b o ns

/-- The register at an address of the control window, if one stands there (00 R8, R10, R11). -/
def locate (addr : Nat) : Option RegAddr :=
  if 0xFF0000000000 ≤ addr ∧ addr ≤ 0xFF0FFFFFFFFF ∧ addr % 8 = 0 then
    locateIn ((addr - 0xFF0000000000) / 0x1000000) (addr % 0x1000000) RegName.all
  else none

/-- The mask of a register's bits whose access code is one of `as`. -/
def RegInfo.mask (i : RegInfo) (as : List Access) : Reg64 :=
  i.fields.foldl (fun v f => if as.contains f.acc then v ||| putFld (0 : Reg64) f.hi f.lo (2 ^ 64 - 1) else v) 0

/-- The fields' reset values put together. -/
def RegInfo.resetWord (i : RegInfo) : Reg64 :=
  i.fields.foldl (fun v f => putFld v f.hi f.lo f.reset) 0
end Sys2Proof.Machine

/-! The named fields of the registers, as the tables name them. -/
namespace Sys2Proof.Machine.F

def DEV_ID_vendor : RegField := ⟨.DEV_ID, 63, 48⟩
def DEV_ID_part : RegField := ⟨.DEV_ID, 47, 32⟩
def DEV_ID_variant : RegField := ⟨.DEV_ID, 31, 24⟩
def DEV_ID_step_major : RegField := ⟨.DEV_ID, 23, 20⟩
def DEV_ID_step_minor : RegField := ⟨.DEV_ID, 19, 16⟩
def DEV_ID_phys_stations : RegField := ⟨.DEV_ID, 15, 8⟩
def DEV_ID_quadrants : RegField := ⟨.DEV_ID, 7, 0⟩
def DEV_ACCESS_ERR_count : RegField := ⟨.DEV_ACCESS_ERR, 63, 32⟩
def DEV_ACCESS_LAST_write : RegField := ⟨.DEV_ACCESS_LAST, 56, 56⟩
def DEV_ACCESS_LAST_source : RegField := ⟨.DEV_ACCESS_LAST, 55, 48⟩
def DEV_ACCESS_LAST_addr : RegField := ⟨.DEV_ACCESS_LAST, 47, 0⟩
def DEV_STN_MAP_refused : RegField := ⟨.DEV_STN_MAP, 16, 16⟩
def DEV_STN_MAP_phys : RegField := ⟨.DEV_STN_MAP, 7, 0⟩
def DEV_OWNER_owned : RegField := ⟨.DEV_OWNER, 63, 63⟩
def DEV_OWNER_master : RegField := ⟨.DEV_OWNER, 55, 48⟩
def DEV_OWNER_period_ms : RegField := ⟨.DEV_OWNER, 47, 32⟩
def DEV_OWNER_release : RegField := ⟨.DEV_OWNER, 1, 1⟩
def DEV_OWNER_claim : RegField := ⟨.DEV_OWNER, 0, 0⟩
def DEV_LEASE_renew : RegField := ⟨.DEV_LEASE, 63, 63⟩
def DEV_LEASE_left_us : RegField := ⟨.DEV_LEASE, 31, 0⟩
def DEV_HANDOVER_en : RegField := ⟨.DEV_HANDOVER, 63, 63⟩
def DEV_HANDOVER_refused : RegField := ⟨.DEV_HANDOVER, 62, 62⟩
def DEV_HANDOVER_successor : RegField := ⟨.DEV_HANDOVER, 7, 0⟩
def DEV_DELEGATE_clusters : RegField := ⟨.DEV_DELEGATE, 3, 0⟩
def DEV_OWN_CNT_hif0 : RegField := ⟨.DEV_OWN_CNT, 63, 52⟩
def DEV_OWN_CNT_hif1 : RegField := ⟨.DEV_OWN_CNT, 51, 40⟩
def DEV_OWN_CNT_mgmt : RegField := ⟨.DEV_OWN_CNT, 39, 28⟩
def DEV_OWN_CNT_inband : RegField := ⟨.DEV_OWN_CNT, 27, 16⟩
def DEV_OWN_CNT_ctl : RegField := ⟨.DEV_OWN_CNT, 15, 0⟩
def DEV_IBA_QUEUE_en : RegField := ⟨.DEV_IBA_QUEUE, 20, 20⟩
def DEV_IBA_QUEUE_queue : RegField := ⟨.DEV_IBA_QUEUE, 19, 0⟩
def STN_LOAD_CMD_op : RegField := ⟨.STN_LOAD_CMD, 63, 60⟩
def STN_LOAD_CMD_ticket : RegField := ⟨.STN_LOAD_CMD, 59, 52⟩
def STN_LOAD_CMD_target : RegField := ⟨.STN_LOAD_CMD, 51, 48⟩
def STN_LOAD_CMD_src : RegField := ⟨.STN_LOAD_CMD, 47, 0⟩
def STN_LOAD_STAT_ticket : RegField := ⟨.STN_LOAD_STAT, 63, 56⟩
def STN_LOAD_STAT_result : RegField := ⟨.STN_LOAD_STAT, 55, 52⟩
def CTL_CMD_op : RegField := ⟨.CTL_CMD, 63, 60⟩
def CTL_CMD_ticket : RegField := ⟨.CTL_CMD, 59, 52⟩
def CTL_CMD_force : RegField := ⟨.CTL_CMD, 51, 51⟩
def CTL_CMD_src : RegField := ⟨.CTL_CMD, 50, 50⟩
def CTL_CMD_cs : RegField := ⟨.CTL_CMD, 49, 49⟩
def CTL_CMD_addr : RegField := ⟨.CTL_CMD, 47, 0⟩
def CTL_STAT_state : RegField := ⟨.CTL_STAT, 63, 61⟩
def CTL_STAT_result : RegField := ⟨.CTL_STAT, 55, 52⟩
def CTL_STAT_ticket : RegField := ⟨.CTL_STAT, 51, 44⟩
def CTL_STAT_image_ver : RegField := ⟨.CTL_STAT, 31, 0⟩
def PWR_DATUM_CMD_op : RegField := ⟨.PWR_DATUM_CMD, 63, 60⟩
def PWR_DATUM_CMD_ticket : RegField := ⟨.PWR_DATUM_CMD, 59, 52⟩
def PWR_DATUM_CMD_addr : RegField := ⟨.PWR_DATUM_CMD, 47, 0⟩
def PWR_DATUM_STAT_ticket : RegField := ⟨.PWR_DATUM_STAT, 63, 56⟩
def PWR_DATUM_STAT_result : RegField := ⟨.PWR_DATUM_STAT, 55, 52⟩
def PWR_DATUM_STAT_valid : RegField := ⟨.PWR_DATUM_STAT, 51, 51⟩
def PWR_DATUM_STAT_factory : RegField := ⟨.PWR_DATUM_STAT, 50, 50⟩
def PWR_DATUM_STAT_defaults : RegField := ⟨.PWR_DATUM_STAT, 49, 49⟩
def PWR_DATUM_STAT_writes : RegField := ⟨.PWR_DATUM_STAT, 31, 0⟩
def MTB_CTRL_domain : RegField := ⟨.MTB_CTRL, 23, 16⟩
def MTB_CTRL_osc_sel : RegField := ⟨.MTB_CTRL, 8, 8⟩
def MTB_CTRL_run : RegField := ⟨.MTB_CTRL, 7, 7⟩
def MTB_CTRL_learn_en : RegField := ⟨.MTB_CTRL, 3, 3⟩
def MTB_CTRL_relock : RegField := ⟨.MTB_CTRL, 2, 2⟩
def MTB_CTRL_holdover : RegField := ⟨.MTB_CTRL, 1, 1⟩
def MTB_CTRL_lock : RegField := ⟨.MTB_CTRL, 0, 0⟩
def MTB_STATUS_state : RegField := ⟨.MTB_STATUS, 17, 16⟩
def MTB_STATUS_run : RegField := ⟨.MTB_STATUS, 15, 15⟩
def MTB_STATUS_step_used : RegField := ⟨.MTB_STATUS, 14, 14⟩
def MTB_STATUS_step_result : RegField := ⟨.MTB_STATUS, 13, 12⟩
def MTB_STATUS_osc_lost : RegField := ⟨.MTB_STATUS, 11, 11⟩
def MTB_STATUS_slew_clamped : RegField := ⟨.MTB_STATUS, 10, 10⟩
def MTB_STATUS_hold_evt : RegField := ⟨.MTB_STATUS, 9, 9⟩
def MTB_STATUS_late_evt : RegField := ⟨.MTB_STATUS, 8, 8⟩
def MTB_STATUS_raster_err : RegField := ⟨.MTB_STATUS, 7, 7⟩
def MTB_TIME_SEC_sec : RegField := ⟨.MTB_TIME_SEC, 47, 0⟩
def MTB_TIME_NS_ns : RegField := ⟨.MTB_TIME_NS, 63, 32⟩
def MTB_TIME_NS_frac : RegField := ⟨.MTB_TIME_NS, 31, 16⟩
def MTB_MTIME_mtime : RegField := ⟨.MTB_MTIME, 63, 0⟩
def MTB_SET_SEC_sec : RegField := ⟨.MTB_SET_SEC, 47, 0⟩
def MTB_SET_NS_ns : RegField := ⟨.MTB_SET_NS, 63, 32⟩
def MTB_SET_NS_frac : RegField := ⟨.MTB_SET_NS, 31, 16⟩
def MTB_SLEW_LIMIT_slew_ppb : RegField := ⟨.MTB_SLEW_LIMIT, 16, 0⟩
def MTB_VERNIER_freq_adj : RegField := ⟨.MTB_VERNIER, 39, 0⟩
def MTB_PHASE_ADJ_absorb_ppb : RegField := ⟨.MTB_PHASE_ADJ, 63, 48⟩
def MTB_PHASE_ADJ_remain : RegField := ⟨.MTB_PHASE_ADJ, 47, 0⟩
def MTB_RATE_LEARNED_rate_learned : RegField := ⟨.MTB_RATE_LEARNED, 39, 0⟩
def MTB_HOLD_auto : RegField := ⟨.MTB_HOLD, 63, 63⟩
def MTB_HOLD_learn_tau : RegField := ⟨.MTB_HOLD, 19, 16⟩
def MTB_HOLD_timeout_ms : RegField := ⟨.MTB_HOLD, 15, 0⟩
def MTB_TICK_len_now : RegField := ⟨.MTB_TICK, 57, 56⟩
def MTB_TICK_len_sel : RegField := ⟨.MTB_TICK, 49, 48⟩
def MTB_TICK_tick : RegField := ⟨.MTB_TICK, 47, 0⟩
def MTB_PPS_out_en : RegField := ⟨.MTB_PPS, 63, 63⟩
def MTB_PPS_in_en : RegField := ⟨.MTB_PPS, 62, 62⟩
def MTB_PPS_width_ns : RegField := ⟨.MTB_PPS, 31, 0⟩
def MTB_PPS_IN_TS_sec : RegField := ⟨.MTB_PPS_IN_TS, 63, 48⟩
def MTB_PPS_IN_TS_ns : RegField := ⟨.MTB_PPS_IN_TS, 47, 16⟩
def MTB_PPS_IN_TS_frac : RegField := ⟨.MTB_PPS_IN_TS, 15, 0⟩
def MTB_TRANSIT_LEAD_lead_ns : RegField := ⟨.MTB_TRANSIT_LEAD, 15, 0⟩
def MTB_CLOCK_ID_clock_id : RegField := ⟨.MTB_CLOCK_ID, 63, 0⟩
def MTB_PTP_QUEUE_queue : RegField := ⟨.MTB_PTP_QUEUE, 19, 0⟩
def MTB_RASTER_RATE_en : RegField := ⟨.MTB_RASTER_RATE, 63, 63⟩
def MTB_RASTER_RATE_num : RegField := ⟨.MTB_RASTER_RATE, 55, 32⟩
def MTB_RASTER_RATE_den : RegField := ⟨.MTB_RASTER_RATE, 23, 0⟩
def MTB_RASTER_GEOM_lines : RegField := ⟨.MTB_RASTER_GEOM, 47, 32⟩
def MTB_RASTER_GEOM_interlace : RegField := ⟨.MTB_RASTER_GEOM, 0, 0⟩
def MTB_RASTER_OFFSET_offset_ns : RegField := ⟨.MTB_RASTER_OFFSET, 31, 0⟩
def MTB_RASTER_PHASE_frame : RegField := ⟨.MTB_RASTER_PHASE, 63, 16⟩
def MTB_RASTER_PHASE_line : RegField := ⟨.MTB_RASTER_PHASE, 15, 0⟩
def MTB_ASYM_tx_delay : RegField := ⟨.MTB_ASYM, 63, 32⟩
def MTB_ASYM_rx_delay : RegField := ⟨.MTB_ASYM, 31, 0⟩
def MTB_PTP_PORT_role : RegField := ⟨.MTB_PTP_PORT, 63, 62⟩
def MTB_PTP_PORT_two_step : RegField := ⟨.MTB_PTP_PORT, 61, 61⟩
def MTB_PTP_PORT_p2p : RegField := ⟨.MTB_PTP_PORT, 60, 60⟩
def MTB_PTP_PORT_transport : RegField := ⟨.MTB_PTP_PORT, 59, 58⟩
def MTB_PTP_PORT_sync_log : RegField := ⟨.MTB_PTP_PORT, 55, 48⟩
def MTB_TRN_CTRL_en : RegField := ⟨.MTB_TRN_CTRL, 63, 63⟩
def MTB_TRN_CTRL_kind : RegField := ⟨.MTB_TRN_CTRL, 62, 62⟩
def MTB_TRN_CTRL_raster : RegField := ⟨.MTB_TRN_CTRL, 61, 59⟩
def MTB_TRN_CTRL_every_n : RegField := ⟨.MTB_TRN_CTRL, 55, 40⟩
def MTB_TRN_CTRL_phase : RegField := ⟨.MTB_TRN_CTRL, 39, 24⟩
def MTB_TRN_CTRL_period_us : RegField := ⟨.MTB_TRN_CTRL, 23, 0⟩
def MTB_TRN_WHEN_at : RegField := ⟨.MTB_TRN_WHEN, 63, 0⟩
def MTB_TRN_ACT_action : RegField := ⟨.MTB_TRN_ACT, 63, 60⟩
def MTB_TRN_ACT_operand : RegField := ⟨.MTB_TRN_ACT, 59, 0⟩
def MTB_TRN_STAT_fires : RegField := ⟨.MTB_TRN_STAT, 63, 32⟩
def MTB_TRN_STAT_late : RegField := ⟨.MTB_TRN_STAT, 31, 16⟩
def MTB_TRN_STAT_sent : RegField := ⟨.MTB_TRN_STAT, 0, 0⟩
def DIS_CTRL_en : RegField := ⟨.DIS_CTRL, 63, 63⟩
def DIS_STATUS_refused_evt : RegField := ⟨.DIS_STATUS, 2, 2⟩
def DIS_STATUS_fault_evt : RegField := ⟨.DIS_STATUS, 1, 1⟩
def DIS_STATUS_void_evt : RegField := ⟨.DIS_STATUS, 0, 0⟩
def DIS_SCALE_scale : RegField := ⟨.DIS_SCALE, 16, 0⟩
def DIS_SET_BASE_base : RegField := ⟨.DIS_SET_BASE, 47, 20⟩
def DIS_UNIT_CMD_op : RegField := ⟨.DIS_UNIT_CMD, 63, 62⟩
def DIS_UNIT_CMD_kind : RegField := ⟨.DIS_UNIT_CMD, 61, 60⟩
def DIS_UNIT_CMD_ticket : RegField := ⟨.DIS_UNIT_CMD, 59, 52⟩
def DIS_UNIT_CMD_index : RegField := ⟨.DIS_UNIT_CMD, 6, 0⟩
def DIS_UNIT_STAT_ticket : RegField := ⟨.DIS_UNIT_STAT, 63, 56⟩
def DIS_UNIT_STAT_result : RegField := ⟨.DIS_UNIT_STAT, 55, 52⟩
def DIS_UNIT_STAT_done : RegField := ⟨.DIS_UNIT_STAT, 31, 0⟩
def DIS_CNT_refused : RegField := ⟨.DIS_CNT, 63, 48⟩
def DIS_CNT_faulted : RegField := ⟨.DIS_CNT, 47, 32⟩
def DIS_CNT_void : RegField := ⟨.DIS_CNT, 31, 16⟩
def DIS_CNT_displaced : RegField := ⟨.DIS_CNT, 15, 0⟩
def DIS_LIST_CFG_en : RegField := ⟨.DIS_LIST_CFG, 63, 63⟩
def DIS_LIST_CFG_cores : RegField := ⟨.DIS_LIST_CFG, 47, 44⟩
def DIS_LIST_CFG_cap : RegField := ⟨.DIS_LIST_CFG, 16, 0⟩
def DIS_LIST_STN0_stations : RegField := ⟨.DIS_LIST_STN0, 63, 0⟩
def DIS_LIST_STN1_stations : RegField := ⟨.DIS_LIST_STN1, 63, 0⟩
def DIS_LIST_STAT_held : RegField := ⟨.DIS_LIST_STAT, 63, 47⟩
def DIS_LIST_STAT_refused : RegField := ⟨.DIS_LIST_STAT, 46, 46⟩
def DIS_LIST_STAT_refusals : RegField := ⟨.DIS_LIST_STAT, 31, 0⟩
def DIS_STN_STATE_state : RegField := ⟨.DIS_STN_STATE, 63, 61⟩
def DIS_STN_STATE_phys : RegField := ⟨.DIS_STN_STATE, 7, 0⟩
def DIS_ACCT_CFG_metered : RegField := ⟨.DIS_ACCT_CFG, 63, 63⟩
def DIS_ACCT_CFG_exempt : RegField := ⟨.DIS_ACCT_CFG, 62, 62⟩
def DIS_ACCT_CFG_rq : RegField := ⟨.DIS_ACCT_CFG, 61, 59⟩
def DIS_ACCT_CFG_prio : RegField := ⟨.DIS_ACCT_CFG, 55, 48⟩
def DIS_ACCT_GRANT0_sc : RegField := ⟨.DIS_ACCT_GRANT0, 63, 32⟩
def DIS_ACCT_GRANT0_cc : RegField := ⟨.DIS_ACCT_GRANT0, 31, 0⟩
def DIS_ACCT_GRANT1_gr : RegField := ⟨.DIS_ACCT_GRANT1, 63, 32⟩
def DIS_ACCT_GRANT1_dram : RegField := ⟨.DIS_ACCT_GRANT1, 31, 0⟩
def DIS_ACCT_LEFT0_sc_left : RegField := ⟨.DIS_ACCT_LEFT0, 63, 32⟩
def DIS_ACCT_LEFT0_cc_left : RegField := ⟨.DIS_ACCT_LEFT0, 31, 0⟩
def DIS_ACCT_LEFT1_gr_left : RegField := ⟨.DIS_ACCT_LEFT1, 63, 32⟩
def DIS_ACCT_LEFT1_dram_left : RegField := ⟨.DIS_ACCT_LEFT1, 31, 0⟩
def DIS_ACCT_STAT_exhausted : RegField := ⟨.DIS_ACCT_STAT, 63, 60⟩
def DIS_ACCT_STAT_exh_ticks : RegField := ⟨.DIS_ACCT_STAT, 47, 32⟩
def INC_SRC_pending : RegField := ⟨.INC_SRC, 63, 63⟩
def INC_SRC_active : RegField := ⟨.INC_SRC, 62, 62⟩
def INC_SRC_level : RegField := ⟨.INC_SRC, 61, 61⟩
def INC_SRC_input : RegField := ⟨.INC_SRC, 60, 60⟩
def INC_SRC_claimed_by : RegField := ⟨.INC_SRC, 44, 40⟩
def INC_SRC_target : RegField := ⟨.INC_SRC, 12, 8⟩
def INC_SRC_prio : RegField := ⟨.INC_SRC, 7, 0⟩
def INC_CLAIM_source : RegField := ⟨.INC_CLAIM, 11, 0⟩
def INC_EOI_source : RegField := ⟨.INC_EOI, 11, 0⟩
def INC_TGT_STAT_running : RegField := ⟨.INC_TGT_STAT, 63, 56⟩
def INC_TGT_STAT_depth : RegField := ⟨.INC_TGT_STAT, 55, 51⟩
def INC_TGT_STAT_top : RegField := ⟨.INC_TGT_STAT, 47, 36⟩
def INC_TGT_STAT_next : RegField := ⟨.INC_TGT_STAT, 11, 0⟩
def INC_SW_SET_set : RegField := ⟨.INC_SW_SET, 63, 0⟩
def INC_CNT_none : RegField := ⟨.INC_CNT, 63, 48⟩
def INC_CNT_eoi_err : RegField := ⟨.INC_CNT, 47, 32⟩
def INC_CNT_lvl_low : RegField := ⟨.INC_CNT, 31, 16⟩
def INC_CNT_stack_full : RegField := ⟨.INC_CNT, 15, 0⟩
def INC_DB_CTRL_en : RegField := ⟨.INC_DB_CTRL, 63, 63⟩
def INC_DB_CTRL_vec : RegField := ⟨.INC_DB_CTRL, 10, 0⟩
def INC_QWATCH_en : RegField := ⟨.INC_QWATCH, 63, 63⟩
def INC_QWATCH_queue : RegField := ⟨.INC_QWATCH, 19, 0⟩
def LOG_CTRL_mode : RegField := ⟨.LOG_CTRL, 1, 0⟩
def LOG_STATUS_full : RegField := ⟨.LOG_STATUS, 63, 63⟩
def LOG_STATUS_flushing : RegField := ⟨.LOG_STATUS, 62, 62⟩
def LOG_STATUS_flash_full : RegField := ⟨.LOG_STATUS, 61, 61⟩
def LOG_STATUS_discard_evt : RegField := ⟨.LOG_STATUS, 60, 60⟩
def LOG_STATUS_overrun_evt : RegField := ⟨.LOG_STATUS, 59, 59⟩
def LOG_STATUS_flush_err : RegField := ⟨.LOG_STATUS, 58, 58⟩
def LOG_STATUS_sev_evt : RegField := ⟨.LOG_STATUS, 57, 57⟩
def LOG_STATUS_unflushed : RegField := ⟨.LOG_STATUS, 44, 32⟩
def LOG_STATUS_seq : RegField := ⟨.LOG_STATUS, 31, 0⟩
def LOG_CMD_op : RegField := ⟨.LOG_CMD, 63, 60⟩
def LOG_CMD_ticket : RegField := ⟨.LOG_CMD, 59, 52⟩
def LOG_CMD_sector : RegField := ⟨.LOG_CMD, 9, 0⟩
def LOG_CMD_STAT_ticket : RegField := ⟨.LOG_CMD_STAT, 63, 56⟩
def LOG_CMD_STAT_result : RegField := ⟨.LOG_CMD_STAT, 55, 52⟩
def LOG_CMD_STAT_done : RegField := ⟨.LOG_CMD_STAT, 31, 0⟩
def LOG_CNT_discarded : RegField := ⟨.LOG_CNT, 63, 48⟩
def LOG_CNT_overrun : RegField := ⟨.LOG_CNT, 47, 32⟩
def LOG_CNT_flash_err : RegField := ⟨.LOG_CNT, 31, 16⟩
def LOG_FLASH_en : RegField := ⟨.LOG_FLASH, 63, 63⟩
def LOG_FLASH_cs : RegField := ⟨.LOG_FLASH, 62, 62⟩
def LOG_FLASH_base : RegField := ⟨.LOG_FLASH, 31, 26⟩
def LOG_WRPTR_flash_slot : RegField := ⟨.LOG_WRPTR, 51, 32⟩
def LOG_WRPTR_newest : RegField := ⟨.LOG_WRPTR, 11, 0⟩
def LOG_RD_ADDR_addr : RegField := ⟨.LOG_RD_ADDR, 47, 0⟩
def LOG_RING_bytes : RegField := ⟨.LOG_RING, 63, 0⟩
def PWR_STATUS_pwrfail : RegField := ⟨.PWR_STATUS, 63, 63⟩
def PWR_STATUS_capped : RegField := ⟨.PWR_STATUS, 62, 62⟩
def PWR_STATUS_therm_warn : RegField := ⟨.PWR_STATUS, 61, 61⟩
def PWR_STATUS_reg_fault : RegField := ⟨.PWR_STATUS, 60, 60⟩
def PWR_STATUS_alive_lost : RegField := ⟨.PWR_STATUS, 59, 59⟩
def PWR_STATUS_twin_ok : RegField := ⟨.PWR_STATUS, 58, 58⟩
def PWR_CAP_cap_w : RegField := ⟨.PWR_CAP, 63, 48⟩
def PWR_CAP_scale_min : RegField := ⟨.PWR_CAP, 47, 31⟩
def PWR_MEAS_est_w : RegField := ⟨.PWR_MEAS, 63, 48⟩
def PWR_MEAS_hot_c : RegField := ⟨.PWR_MEAS, 47, 40⟩
def PWR_MEAS_vcore_mv : RegField := ⟨.PWR_MEAS, 39, 30⟩
def PWR_ALIVE_kick : RegField := ⟨.PWR_ALIVE, 63, 63⟩
def PWR_ALIVE_alive_ms : RegField := ⟨.PWR_ALIVE, 15, 0⟩
def PWR_THERM_warn_c : RegField := ⟨.PWR_THERM, 63, 56⟩
def PWR_BOOT_STAT_result : RegField := ⟨.PWR_BOOT_STAT, 63, 62⟩
def PWR_BOOT_STAT_image_ver : RegField := ⟨.PWR_BOOT_STAT, 31, 0⟩
def PWR_GATE_CFG_gate_idle_us : RegField := ⟨.PWR_GATE_CFG, 63, 48⟩
def PWR_GATE_STN0_en : RegField := ⟨.PWR_GATE_STN0, 63, 0⟩
def PWR_GATE_STN1_en : RegField := ⟨.PWR_GATE_STN1, 63, 0⟩
def PWR_GATE_VCC_en : RegField := ⟨.PWR_GATE_VCC, 63, 0⟩
def PWR_RAIL_en : RegField := ⟨.PWR_RAIL, 63, 63⟩
def PWR_RAIL_addr : RegField := ⟨.PWR_RAIL, 54, 48⟩
def PWR_RAIL_vout_mv : RegField := ⟨.PWR_RAIL, 47, 32⟩
def PWR_RAIL_iout_a : RegField := ⟨.PWR_RAIL, 31, 16⟩
def SEC_STATUS_secured : RegField := ⟨.SEC_STATUS, 63, 63⟩
def SEC_STATUS_rng_ok : RegField := ⟨.SEC_STATUS, 62, 62⟩
def SEC_STATUS_rng_stale : RegField := ⟨.SEC_STATUS, 61, 61⟩
def SEC_STATUS_alarm : RegField := ⟨.SEC_STATUS, 60, 60⟩
def SEC_ALARM_EN_en : RegField := ⟨.SEC_ALARM_EN, 3, 0⟩
def SEC_ALARM_STAT_src : RegField := ⟨.SEC_ALARM_STAT, 3, 0⟩
def SEC_RNG_bits : RegField := ⟨.SEC_RNG, 63, 0⟩
def SEC_KEY_BASE_base : RegField := ⟨.SEC_KEY_BASE, 47, 20⟩
def SEC_KEY_CMD_op : RegField := ⟨.SEC_KEY_CMD, 63, 60⟩
def SEC_KEY_CMD_ticket : RegField := ⟨.SEC_KEY_CMD, 59, 52⟩
def SEC_KEY_CMD_bank : RegField := ⟨.SEC_KEY_CMD, 51, 48⟩
def SEC_KEY_CMD_slot : RegField := ⟨.SEC_KEY_CMD, 47, 32⟩
def SEC_KEY_STAT_ticket : RegField := ⟨.SEC_KEY_STAT, 63, 56⟩
def SEC_KEY_STAT_result : RegField := ⟨.SEC_KEY_STAT, 55, 52⟩
def SEC_KEY_STAT_done : RegField := ⟨.SEC_KEY_STAT, 31, 0⟩
def SEC_REQ_QUEUE_en : RegField := ⟨.SEC_REQ_QUEUE, 20, 20⟩
def SEC_REQ_QUEUE_queue : RegField := ⟨.SEC_REQ_QUEUE, 19, 0⟩
def SEC_CNT_alarms : RegField := ⟨.SEC_CNT, 63, 48⟩
def SEC_CNT_key_empty : RegField := ⟨.SEC_CNT, 47, 32⟩
def SEC_CNT_rng_zero : RegField := ⟨.SEC_CNT, 31, 16⟩
def SEC_CNT_lock_refused : RegField := ⟨.SEC_CNT, 15, 0⟩
def SEC_KEY_DATA_bytes : RegField := ⟨.SEC_KEY_DATA, 63, 0⟩
def SEC_LOCK_kind : RegField := ⟨.SEC_LOCK, 63, 61⟩
def SEC_LOCK_holder : RegField := ⟨.SEC_LOCK, 60, 22⟩
def SEC_LOCK_account : RegField := ⟨.SEC_LOCK, 21, 10⟩
def LNK_ING_CTRL_en : RegField := ⟨.LNK_ING_CTRL, 63, 63⟩
def LNK_ING_CTRL_overhead : RegField := ⟨.LNK_ING_CTRL, 55, 48⟩
def LNK_ING_CNT_ipck : RegField := ⟨.LNK_ING_CNT, 63, 48⟩
def LNK_ING_CNT_buf_empty : RegField := ⟨.LNK_ING_CNT, 47, 32⟩
def LNK_ING_CNT_exc_drop : RegField := ⟨.LNK_ING_CNT, 31, 16⟩
def LNK_ING_CNT_stop_drop : RegField := ⟨.LNK_ING_CNT, 15, 0⟩
def LNK_DSCP_COLOUR_colour : RegField := ⟨.LNK_DSCP_COLOUR, 63, 0⟩
def LNK_BUF_RET_addr : RegField := ⟨.LNK_BUF_RET, 47, 0⟩
def LNK_EXC_QUEUE_rate : RegField := ⟨.LNK_EXC_QUEUE, 63, 48⟩
def LNK_EXC_QUEUE_burst : RegField := ⟨.LNK_EXC_QUEUE, 47, 36⟩
def LNK_EXC_QUEUE_en : RegField := ⟨.LNK_EXC_QUEUE, 20, 20⟩
def LNK_EXC_QUEUE_queue : RegField := ⟨.LNK_EXC_QUEUE, 19, 0⟩
def LNK_KEY_BASE_base : RegField := ⟨.LNK_KEY_BASE, 47, 20⟩
def LNK_STREAM_BASE_base : RegField := ⟨.LNK_STREAM_BASE, 47, 20⟩
def LNK_CRYPTO_BASE_base : RegField := ⟨.LNK_CRYPTO_BASE, 47, 20⟩
def LNK_TMAP_BASE_base : RegField := ⟨.LNK_TMAP_BASE, 47, 20⟩
def LNK_FLOW_CMD_op : RegField := ⟨.LNK_FLOW_CMD, 63, 60⟩
def LNK_FLOW_CMD_ticket : RegField := ⟨.LNK_FLOW_CMD, 59, 52⟩
def LNK_FLOW_CMD_stream : RegField := ⟨.LNK_FLOW_CMD, 19, 0⟩
def LNK_FLOW_STAT_ticket : RegField := ⟨.LNK_FLOW_STAT, 63, 56⟩
def LNK_FLOW_STAT_result : RegField := ⟨.LNK_FLOW_STAT, 55, 52⟩
def LNK_FLOW_STAT_done : RegField := ⟨.LNK_FLOW_STAT, 31, 0⟩
def LNK_STOP_CMD_op : RegField := ⟨.LNK_STOP_CMD, 63, 61⟩
def LNK_STOP_CMD_ticket : RegField := ⟨.LNK_STOP_CMD, 60, 53⟩
def LNK_STOP_CMD_index : RegField := ⟨.LNK_STOP_CMD, 19, 0⟩
def LNK_STOP_STAT_ticket : RegField := ⟨.LNK_STOP_STAT, 63, 56⟩
def LNK_STOP_STAT_result : RegField := ⟨.LNK_STOP_STAT, 55, 52⟩
def LNK_STOP_STAT_done : RegField := ⟨.LNK_STOP_STAT, 31, 0⟩
def LNK_POL_CFG0_en : RegField := ⟨.LNK_POL_CFG0, 63, 63⟩
def LNK_POL_CFG0_red_pass : RegField := ⟨.LNK_POL_CFG0, 62, 62⟩
def LNK_POL_CFG0_pir : RegField := ⟨.LNK_POL_CFG0, 55, 28⟩
def LNK_POL_CFG0_cir : RegField := ⟨.LNK_POL_CFG0, 27, 0⟩
def LNK_POL_CFG1_pbs : RegField := ⟨.LNK_POL_CFG1, 63, 40⟩
def LNK_POL_CFG1_cbs : RegField := ⟨.LNK_POL_CFG1, 39, 16⟩
def LNK_LEG_BASE_base : RegField := ⟨.LNK_LEG_BASE, 47, 20⟩
def LNK_SUB_BASE_base : RegField := ⟨.LNK_SUB_BASE, 47, 20⟩
def LNK_REPL_BASE_base : RegField := ⟨.LNK_REPL_BASE, 47, 20⟩
def LNK_ROOM_BASE_base : RegField := ⟨.LNK_ROOM_BASE, 47, 20⟩
def LNK_EGR_CTRL_en : RegField := ⟨.LNK_EGR_CTRL, 63, 63⟩
def LNK_EGR_CTRL_overhead : RegField := ⟨.LNK_EGR_CTRL, 55, 48⟩
def LNK_EGR_CTRL_hold_ms : RegField := ⟨.LNK_EGR_CTRL, 47, 32⟩
def LNK_EGR_CTRL_rtx_scan : RegField := ⟨.LNK_EGR_CTRL, 15, 0⟩
def LNK_EGR_CNT_stop_drop : RegField := ⟨.LNK_EGR_CNT, 63, 48⟩
def LNK_EGR_CNT_fan_trunc : RegField := ⟨.LNK_EGR_CNT, 47, 32⟩
def LNK_EGR_CNT_q_drop : RegField := ⟨.LNK_EGR_CNT, 31, 16⟩
def LNK_EGR_CNT_age_drop : RegField := ⟨.LNK_EGR_CNT, 15, 0⟩
def LNK_SEL_CMD_op : RegField := ⟨.LNK_SEL_CMD, 63, 60⟩
def LNK_SEL_CMD_ticket : RegField := ⟨.LNK_SEL_CMD, 59, 52⟩
def LNK_SEL_CMD_s : RegField := ⟨.LNK_SEL_CMD, 51, 48⟩
def LNK_SEL_CMD_t : RegField := ⟨.LNK_SEL_CMD, 47, 44⟩
def LNK_SEL_CMD_index : RegField := ⟨.LNK_SEL_CMD, 23, 0⟩
def LNK_SEL_STAT_ticket : RegField := ⟨.LNK_SEL_STAT, 63, 56⟩
def LNK_SEL_STAT_result : RegField := ⟨.LNK_SEL_STAT, 55, 52⟩
def LNK_SEL_STAT_done : RegField := ⟨.LNK_SEL_STAT, 31, 0⟩
def LNK_RTX_QUEUE_en : RegField := ⟨.LNK_RTX_QUEUE, 20, 20⟩
def LNK_RTX_QUEUE_queue : RegField := ⟨.LNK_RTX_QUEUE, 19, 0⟩
def LNK_LOCAL_QUEUE_en : RegField := ⟨.LNK_LOCAL_QUEUE, 20, 20⟩
def LNK_LOCAL_QUEUE_queue : RegField := ⟨.LNK_LOCAL_QUEUE, 19, 0⟩
def LNK_CLASS_SHP0_pir : RegField := ⟨.LNK_CLASS_SHP0, 55, 28⟩
def LNK_CLASS_SHP0_cir : RegField := ⟨.LNK_CLASS_SHP0, 27, 0⟩
def LNK_CLASS_SHP1_pbs : RegField := ⟨.LNK_CLASS_SHP1, 63, 40⟩
def LNK_CLASS_SHP1_cbs : RegField := ⟨.LNK_CLASS_SHP1, 39, 16⟩
def LNK_TX_QUEUE_en : RegField := ⟨.LNK_TX_QUEUE, 20, 20⟩
def LNK_TX_QUEUE_queue : RegField := ⟨.LNK_TX_QUEUE, 19, 0⟩
def LNK_TX_CNT_drop : RegField := ⟨.LNK_TX_CNT, 63, 48⟩
def LNK_TX_CNT_crc_fail : RegField := ⟨.LNK_TX_CNT, 47, 32⟩
def LNK_PKT_BASE_base : RegField := ⟨.LNK_PKT_BASE, 47, 20⟩
def LNK_PKT_CMD_op : RegField := ⟨.LNK_PKT_CMD, 63, 60⟩
def LNK_PKT_CMD_ticket : RegField := ⟨.LNK_PKT_CMD, 59, 52⟩
def LNK_PKT_CMD_flow : RegField := ⟨.LNK_PKT_CMD, 7, 0⟩
def LNK_PKT_STAT_ticket : RegField := ⟨.LNK_PKT_STAT, 63, 56⟩
def LNK_PKT_STAT_result : RegField := ⟨.LNK_PKT_STAT, 55, 52⟩
def LNK_PKT_STAT_done : RegField := ⟨.LNK_PKT_STAT, 31, 0⟩
def LNK_GRP_STAT_refclk_ok : RegField := ⟨.LNK_GRP_STAT, 63, 63⟩
def LNK_LANE_STAT_signal : RegField := ⟨.LNK_LANE_STAT, 63, 63⟩
def LNK_LANE_STAT_locked : RegField := ⟨.LNK_LANE_STAT, 62, 62⟩
def LNK_LANE_STAT_fec_uncorr : RegField := ⟨.LNK_LANE_STAT, 47, 32⟩
def LNK_LANE_STAT_fec_corr : RegField := ⟨.LNK_LANE_STAT, 31, 0⟩
def LNK_PORT_CFG_en : RegField := ⟨.LNK_PORT_CFG, 63, 63⟩
def LNK_PORT_CFG_type : RegField := ⟨.LNK_PORT_CFG, 62, 60⟩
def LNK_PORT_CFG_width : RegField := ⟨.LNK_PORT_CFG, 59, 58⟩
def LNK_PORT_CFG_fec : RegField := ⟨.LNK_PORT_CFG, 57, 56⟩
def LNK_PORT_CFG_phy : RegField := ⟨.LNK_PORT_CFG, 55, 54⟩
def LNK_PORT_CFG_promisc : RegField := ⟨.LNK_PORT_CFG, 53, 53⟩
def LNK_PORT_CFG_ptp_class : RegField := ⟨.LNK_PORT_CFG, 52, 50⟩
def LNK_PORT_CFG_max_frame : RegField := ⟨.LNK_PORT_CFG, 49, 36⟩
def LNK_PORT_MAC_mac : RegField := ⟨.LNK_PORT_MAC, 47, 0⟩
def LNK_PORT_STAT_link : RegField := ⟨.LNK_PORT_STAT, 63, 63⟩
def LNK_PORT_STAT_link_evt : RegField := ⟨.LNK_PORT_STAT, 62, 62⟩
def LNK_PORT_STAT_cfg_err : RegField := ⟨.LNK_PORT_STAT, 61, 61⟩
def LNK_PORT_STAT_lpi_rx : RegField := ⟨.LNK_PORT_STAT, 60, 60⟩
def LNK_PORT_STAT_lpi_tx : RegField := ⟨.LNK_PORT_STAT, 59, 59⟩
def LNK_PORT_EEE_en : RegField := ⟨.LNK_PORT_EEE, 63, 63⟩
def LNK_PORT_EEE_tw_tx_us : RegField := ⟨.LNK_PORT_EEE, 31, 16⟩
def LNK_PORT_EEE_idle_us : RegField := ⟨.LNK_PORT_EEE, 15, 0⟩
def LNK_PORT_GCTL_en : RegField := ⟨.LNK_PORT_GCTL, 63, 63⟩
def LNK_PORT_GCTL_mode : RegField := ⟨.LNK_PORT_GCTL, 62, 62⟩
def LNK_PORT_GCTL_change : RegField := ⟨.LNK_PORT_GCTL, 61, 61⟩
def LNK_PORT_GCTL_count : RegField := ⟨.LNK_PORT_GCTL, 60, 52⟩
def LNK_PORT_GCTL_cycle_ns : RegField := ⟨.LNK_PORT_GCTL, 31, 0⟩
def LNK_PORT_GBASE_base : RegField := ⟨.LNK_PORT_GBASE, 63, 0⟩
def LNK_PORT_GSTAT_oper_en : RegField := ⟨.LNK_PORT_GSTAT, 63, 63⟩
def LNK_PORT_GSTAT_bank : RegField := ⟨.LNK_PORT_GSTAT, 62, 62⟩
def LNK_PORT_GSTAT_entry : RegField := ⟨.LNK_PORT_GSTAT, 61, 54⟩
def LNK_PORT_GSTAT_gates : RegField := ⟨.LNK_PORT_GSTAT, 53, 46⟩
def LNK_PORT_GSTAT_cycles : RegField := ⟨.LNK_PORT_GSTAT, 31, 0⟩
def LNK_PORT_CNT0_runt : RegField := ⟨.LNK_PORT_CNT0, 63, 48⟩
def LNK_PORT_CNT0_fcs : RegField := ⟨.LNK_PORT_CNT0, 47, 32⟩
def LNK_PORT_CNT0_giant : RegField := ⟨.LNK_PORT_CNT0, 31, 16⟩
def LNK_PORT_CNT0_rx_ovf : RegField := ⟨.LNK_PORT_CNT0, 15, 0⟩
def LNK_PORT_CNT1_filt_drop : RegField := ⟨.LNK_PORT_CNT1, 63, 48⟩
def LNK_PORT_CNT1_tx_down : RegField := ⟨.LNK_PORT_CNT1, 47, 32⟩
def LNK_PORT_CNT1_lt_late : RegField := ⟨.LNK_PORT_CNT1, 31, 16⟩
def LNK_PORT_CNT1_lt_drop : RegField := ⟨.LNK_PORT_CNT1, 15, 0⟩
def LNK_MC_HASH_bins : RegField := ⟨.LNK_MC_HASH, 63, 0⟩
def LNK_LT_CFG_en : RegField := ⟨.LNK_LT_CFG, 63, 63⟩
def LNK_LT_CFG_drop_late : RegField := ⟨.LNK_LT_CFG, 62, 62⟩
def LNK_LT_CFG_hold : RegField := ⟨.LNK_LT_CFG, 61, 61⟩
def LNK_LT_CFG_late_tol_ns : RegField := ⟨.LNK_LT_CFG, 31, 16⟩
def LNK_MRG_en : RegField := ⟨.LNK_MRG, 63, 63⟩
def LNK_MRG_primary : RegField := ⟨.LNK_MRG, 59, 40⟩
def LNK_MRG_secondary : RegField := ⟨.LNK_MRG, 39, 20⟩
def LNK_MRG_CNT_dup : RegField := ⟨.LNK_MRG_CNT, 63, 32⟩
def LNK_MRG_CNT_late : RegField := ⟨.LNK_MRG_CNT, 31, 16⟩
def LNK_GCL_gates : RegField := ⟨.LNK_GCL, 63, 56⟩
def LNK_GCL_interval_ns : RegField := ⟨.LNK_GCL, 31, 0⟩
def CMP_CTRL_en : RegField := ⟨.CMP_CTRL, 63, 63⟩
def CMP_CTRL_latch_ns : RegField := ⟨.CMP_CTRL, 15, 0⟩
def CMP_STATUS_state : RegField := ⟨.CMP_STATUS, 63, 61⟩
def CMP_COMMIT_canvas : RegField := ⟨.CMP_COMMIT, 9, 0⟩
def CMP_CNT_crc_fail : RegField := ⟨.CMP_CNT, 63, 48⟩
def CMP_CNT_late : RegField := ⟨.CMP_CNT, 47, 32⟩
def CMP_CNT_rejected : RegField := ⟨.CMP_CNT, 31, 16⟩
def CMP_CNT_held : RegField := ⟨.CMP_CNT, 15, 0⟩
def CMP_DONE_QUEUE_en : RegField := ⟨.CMP_DONE_QUEUE, 20, 20⟩
def CMP_DONE_QUEUE_queue : RegField := ⟨.CMP_DONE_QUEUE, 19, 0⟩
def CMP_REL_QUEUE_en : RegField := ⟨.CMP_REL_QUEUE, 20, 20⟩
def CMP_REL_QUEUE_queue : RegField := ⟨.CMP_REL_QUEUE, 19, 0⟩
def CMP_HCOEF_taps : RegField := ⟨.CMP_HCOEF, 63, 0⟩
def CMP_VCOEF_taps : RegField := ⟨.CMP_VCOEF, 63, 0⟩
def CMP_CAN_CTRL_en : RegField := ⟨.CMP_CAN_CTRL, 63, 63⟩
def CMP_CAN_CTRL_raster : RegField := ⟨.CMP_CAN_CTRL, 62, 60⟩
def CMP_CAN_CTRL_div : RegField := ⟨.CMP_CAN_CTRL, 59, 58⟩
def CMP_CAN_CTRL_out_fmt : RegField := ⟨.CMP_CAN_CTRL, 57, 54⟩
def CMP_CAN_CTRL_space : RegField := ⟨.CMP_CAN_CTRL, 53, 52⟩
def CMP_CAN_CTRL_full_range : RegField := ⟨.CMP_CAN_CTRL, 51, 51⟩
def CMP_CAN_CTRL_count : RegField := ⟨.CMP_CAN_CTRL, 49, 48⟩
def CMP_CAN_CTRL_account : RegField := ⟨.CMP_CAN_CTRL, 47, 36⟩
def CMP_CAN_SIZE_width : RegField := ⟨.CMP_CAN_SIZE, 63, 48⟩
def CMP_CAN_SIZE_height : RegField := ⟨.CMP_CAN_SIZE, 47, 32⟩
def CMP_CAN_SIZE_phase_ns : RegField := ⟨.CMP_CAN_SIZE, 31, 0⟩
def CMP_CAN_OUT_stride_64k : RegField := ⟨.CMP_CAN_OUT, 63, 48⟩
def CMP_CAN_OUT_out_base : RegField := ⟨.CMP_CAN_OUT, 47, 0⟩
def CMP_CAN_BG_y : RegField := ⟨.CMP_CAN_BG, 47, 32⟩
def CMP_CAN_BG_cb : RegField := ⟨.CMP_CAN_BG, 31, 16⟩
def CMP_CAN_BG_cr : RegField := ⟨.CMP_CAN_BG, 15, 0⟩
def CMP_CAN_2110_en : RegField := ⟨.CMP_CAN_2110, 63, 63⟩
def CMP_CAN_2110_lg : RegField := ⟨.CMP_CAN_2110, 62, 59⟩
def CMP_CAN_2110_flow : RegField := ⟨.CMP_CAN_2110, 58, 51⟩
def CMP_CAN_STAT_slot : RegField := ⟨.CMP_CAN_STAT, 63, 62⟩
def CMP_CAN_STAT_err : RegField := ⟨.CMP_CAN_STAT, 61, 61⟩
def CMP_CAN_STAT_requested : RegField := ⟨.CMP_CAN_STAT, 60, 60⟩
def CMP_CAN_STAT_frame : RegField := ⟨.CMP_CAN_STAT, 47, 0⟩
def CMP_INS_CTRL_en : RegField := ⟨.CMP_INS_CTRL, 63, 63⟩
def CMP_INS_CTRL_group : RegField := ⟨.CMP_INS_CTRL, 62, 59⟩
def CMP_INS_CTRL_src_fmt : RegField := ⟨.CMP_INS_CTRL, 58, 55⟩
def CMP_INS_CTRL_space : RegField := ⟨.CMP_INS_CTRL, 54, 53⟩
def CMP_INS_CTRL_full_range : RegField := ⟨.CMP_INS_CTRL, 52, 52⟩
def CMP_INS_CTRL_alpha : RegField := ⟨.CMP_INS_CTRL, 51, 44⟩
def CMP_INS_CTRL_fence_en : RegField := ⟨.CMP_INS_CTRL, 43, 43⟩
def CMP_INS_SRC_src_addr : RegField := ⟨.CMP_INS_SRC, 47, 0⟩
def CMP_INS_SIZE_src_w : RegField := ⟨.CMP_INS_SIZE, 63, 48⟩
def CMP_INS_SIZE_src_h : RegField := ⟨.CMP_INS_SIZE, 47, 32⟩
def CMP_INS_CROP_x : RegField := ⟨.CMP_INS_CROP, 63, 48⟩
def CMP_INS_CROP_y : RegField := ⟨.CMP_INS_CROP, 47, 32⟩
def CMP_INS_CROP_w : RegField := ⟨.CMP_INS_CROP, 31, 16⟩
def CMP_INS_CROP_h : RegField := ⟨.CMP_INS_CROP, 15, 0⟩
def CMP_INS_DST_x : RegField := ⟨.CMP_INS_DST, 63, 48⟩
def CMP_INS_DST_y : RegField := ⟨.CMP_INS_DST, 47, 32⟩
def CMP_INS_DST_w : RegField := ⟨.CMP_INS_DST, 31, 16⟩
def CMP_INS_DST_h : RegField := ⟨.CMP_INS_DST, 15, 0⟩
def CMP_INS_FENCE_addr : RegField := ⟨.CMP_INS_FENCE, 47, 0⟩
def CMP_INS_TARGET_target : RegField := ⟨.CMP_INS_TARGET, 63, 0⟩
def CMP_INS_STAT_held : RegField := ⟨.CMP_INS_STAT, 63, 32⟩
def CMP_INS_STAT_err : RegField := ⟨.CMP_INS_STAT, 31, 31⟩
def CMP_INS_STAT_pending : RegField := ⟨.CMP_INS_STAT, 30, 30⟩
def CMP_INS_STAT_dirty : RegField := ⟨.CMP_INS_STAT, 29, 29⟩
def CMP_INS_STAT_active_en : RegField := ⟨.CMP_INS_STAT, 28, 28⟩
def CMP_INS_STAT_err_code : RegField := ⟨.CMP_INS_STAT, 27, 24⟩
def AUD_CTRL_en : RegField := ⟨.AUD_CTRL, 63, 63⟩
def AUD_CTRL_account : RegField := ⟨.AUD_CTRL, 59, 48⟩
def AUD_STATUS_state : RegField := ⟨.AUD_STATUS, 63, 61⟩
def AUD_PORT_CFG_en : RegField := ⟨.AUD_PORT_CFG, 63, 63⟩
def AUD_PORT_CFG_mode : RegField := ⟨.AUD_PORT_CFG, 62, 61⟩
def AUD_PORT_CFG_clk_src : RegField := ⟨.AUD_PORT_CFG, 60, 59⟩
def AUD_PORT_CFG_rate : RegField := ⟨.AUD_PORT_CFG, 58, 57⟩
def AUD_PORT_CFG_slots : RegField := ⟨.AUD_PORT_CFG, 56, 52⟩
def AUD_PORT_CFG_slot_bits : RegField := ⟨.AUD_PORT_CFG, 51, 50⟩
def AUD_PORT_CFG_fs_delay : RegField := ⟨.AUD_PORT_CFG, 49, 49⟩
def AUD_PORT_CFG_fs_wide : RegField := ⟨.AUD_PORT_CFG, 48, 48⟩
def AUD_PORT_CFG_fs_inv : RegField := ⟨.AUD_PORT_CFG, 47, 47⟩
def AUD_PORT_CFG_bclk_fall : RegField := ⟨.AUD_PORT_CFG, 46, 46⟩
def AUD_PORT_CFG_out_hiz : RegField := ⟨.AUD_PORT_CFG, 45, 45⟩
def AUD_PORT_CFG_cs_src : RegField := ⟨.AUD_PORT_CFG, 44, 44⟩
def AUD_PORT_CFG_cs_crc : RegField := ⟨.AUD_PORT_CFG, 43, 43⟩
def AUD_PORT_ROUTE_out_q : RegField := ⟨.AUD_PORT_ROUTE, 63, 44⟩
def AUD_PORT_ROUTE_in_q : RegField := ⟨.AUD_PORT_ROUTE, 43, 24⟩
def AUD_PORT_ROUTE_free_q : RegField := ⟨.AUD_PORT_ROUTE, 23, 4⟩
def AUD_PORT_MASK_tx_mask : RegField := ⟨.AUD_PORT_MASK, 63, 32⟩
def AUD_PORT_MASK_rx_mask : RegField := ⟨.AUD_PORT_MASK, 31, 0⟩
def AUD_PORT_RATIO_ratio : RegField := ⟨.AUD_PORT_RATIO, 39, 0⟩
def AUD_PORT_STAT_locked : RegField := ⟨.AUD_PORT_STAT, 63, 63⟩
def AUD_PORT_STAT_cfg_err : RegField := ⟨.AUD_PORT_STAT, 62, 62⟩
def AUD_PORT_STAT_lock_evt : RegField := ⟨.AUD_PORT_STAT, 61, 61⟩
def AUD_PORT_STAT_cs_new : RegField := ⟨.AUD_PORT_STAT, 60, 60⟩
def AUD_PORT_CNT_underrun : RegField := ⟨.AUD_PORT_CNT, 63, 48⟩
def AUD_PORT_CNT_late : RegField := ⟨.AUD_PORT_CNT, 47, 32⟩
def AUD_PORT_CNT_overrun : RegField := ⟨.AUD_PORT_CNT, 31, 16⟩
def AUD_PORT_CNT_crc_fail : RegField := ⟨.AUD_PORT_CNT, 15, 8⟩
def AUD_PORT_CNT_line_err : RegField := ⟨.AUD_PORT_CNT, 7, 0⟩
def AUD_TRIM_mute : RegField := ⟨.AUD_TRIM, 16, 16⟩
def AUD_TRIM_gain : RegField := ⟨.AUD_TRIM, 15, 0⟩
def AUD_CS_TX_bytes : RegField := ⟨.AUD_CS_TX, 63, 0⟩
def AUD_CS_RX_bytes : RegField := ⟨.AUD_CS_RX, 63, 0⟩
def AUD_NET_CFG_en : RegField := ⟨.AUD_NET_CFG, 63, 63⟩
def AUD_NET_CFG_lg : RegField := ⟨.AUD_NET_CFG, 62, 59⟩
def AUD_NET_CFG_flow : RegField := ⟨.AUD_NET_CFG, 58, 51⟩
def AUD_NET_CFG_enc : RegField := ⟨.AUD_NET_CFG, 50, 50⟩
def AUD_NET_CFG_ptime : RegField := ⟨.AUD_NET_CFG, 49, 49⟩
def AUD_NET_CFG_ch : RegField := ⟨.AUD_NET_CFG, 48, 43⟩
def AUD_NET_CFG_queue : RegField := ⟨.AUD_NET_CFG, 42, 23⟩
def AUD_NET_ID_ssrc : RegField := ⟨.AUD_NET_ID, 63, 32⟩
def AUD_NET_ID_pt : RegField := ⟨.AUD_NET_ID, 31, 25⟩
def AUD_NET_ID_seq : RegField := ⟨.AUD_NET_ID, 15, 0⟩
def AUD_NET_CNT_underrun : RegField := ⟨.AUD_NET_CNT, 63, 48⟩
def AUD_NET_CNT_late : RegField := ⟨.AUD_NET_CNT, 47, 32⟩
def AUD_NET_CNT_crc_fail : RegField := ⟨.AUD_NET_CNT, 31, 16⟩
def AUD_NET_CNT_refused : RegField := ⟨.AUD_NET_CNT, 15, 15⟩
def MEM_TIMING_page_idle_ns : RegField := ⟨.MEM_TIMING, 63, 48⟩
def MEM_TIMING_sr_idle_us : RegField := ⟨.MEM_TIMING, 47, 32⟩
def MEM_TIMING_nbr_log2 : RegField := ⟨.MEM_TIMING, 31, 28⟩
def MEM_ERR_alerts : RegField := ⟨.MEM_ERR, 63, 48⟩
def MEM_ERR_replays : RegField := ⟨.MEM_ERR, 47, 32⟩
def MEM_ERR_forced_ref : RegField := ⟨.MEM_ERR, 31, 16⟩
def MEM_ERR_nbr_ref : RegField := ⟨.MEM_ERR, 15, 0⟩
def MEM_CRC_CNT0_forwarder : RegField := ⟨.MEM_CRC_CNT0, 63, 48⟩
def MEM_CRC_CNT0_decoder : RegField := ⟨.MEM_CRC_CNT0, 47, 32⟩
def MEM_CRC_CNT0_encoder : RegField := ⟨.MEM_CRC_CNT0, 31, 16⟩
def MEM_CRC_CNT0_composer : RegField := ⟨.MEM_CRC_CNT0, 15, 0⟩
def MEM_CRC_CNT1_audio : RegField := ⟨.MEM_CRC_CNT1, 63, 48⟩
def MEM_CRC_CNT1_mover : RegField := ⟨.MEM_CRC_CNT1, 47, 32⟩
def MEM_CRC_CNT1_other : RegField := ⟨.MEM_CRC_CNT1, 31, 16⟩
def MEM_CRC_CNT1_write_path : RegField := ⟨.MEM_CRC_CNT1, 15, 0⟩
def MEM_CRC_LAST_kind : RegField := ⟨.MEM_CRC_LAST, 63, 60⟩
def MEM_CRC_LAST_store : RegField := ⟨.MEM_CRC_LAST, 59, 59⟩
def MEM_CRC_LAST_gx : RegField := ⟨.MEM_CRC_LAST, 55, 52⟩
def MEM_CRC_LAST_gy : RegField := ⟨.MEM_CRC_LAST, 51, 48⟩
def MEM_CRC_LAST_addr : RegField := ⟨.MEM_CRC_LAST, 47, 0⟩
def MEM_CHAN_CMD_op : RegField := ⟨.MEM_CHAN_CMD, 63, 60⟩
def MEM_CHAN_CMD_ticket : RegField := ⟨.MEM_CHAN_CMD, 59, 52⟩
def MEM_CHAN_CMD_channel : RegField := ⟨.MEM_CHAN_CMD, 2, 0⟩
def MEM_CHAN_RES_ticket : RegField := ⟨.MEM_CHAN_RES, 63, 56⟩
def MEM_CHAN_RES_result : RegField := ⟨.MEM_CHAN_RES, 55, 52⟩
def MEM_STATUS_inorder : RegField := ⟨.MEM_STATUS, 63, 32⟩
def MEM_CHAN_STAT_state : RegField := ⟨.MEM_CHAN_STAT, 63, 61⟩
def MEM_CHAN_STAT_trainings : RegField := ⟨.MEM_CHAN_STAT, 15, 0⟩
def MEM_BAND_en : RegField := ⟨.MEM_BAND, 63, 63⟩
def MEM_BAND_order : RegField := ⟨.MEM_BAND, 62, 61⟩
def MEM_BAND_refused : RegField := ⟨.MEM_BAND, 60, 60⟩
def MEM_BAND_q0 : RegField := ⟨.MEM_BAND, 56, 50⟩
def MEM_BAND_q1 : RegField := ⟨.MEM_BAND, 49, 43⟩
def MEM_BAND_q2 : RegField := ⟨.MEM_BAND, 42, 36⟩
def MEM_BAND_q3 : RegField := ⟨.MEM_BAND, 35, 29⟩
def MEM_EXCL_excl : RegField := ⟨.MEM_EXCL, 63, 0⟩
def MEM_GUARD_en : RegField := ⟨.MEM_GUARD, 63, 63⟩
def MEM_GUARD_base : RegField := ⟨.MEM_GUARD, 47, 20⟩
def MEM_GUARD_size_mib : RegField := ⟨.MEM_GUARD, 19, 0⟩
def MEM_MAP_ERR_unbacked : RegField := ⟨.MEM_MAP_ERR, 63, 32⟩
def MEM_QDESC_BASE_base : RegField := ⟨.MEM_QDESC_BASE, 47, 20⟩
def MEM_Q_CMD_op : RegField := ⟨.MEM_Q_CMD, 63, 60⟩
def MEM_Q_CMD_ticket : RegField := ⟨.MEM_Q_CMD, 59, 52⟩
def MEM_Q_CMD_queue : RegField := ⟨.MEM_Q_CMD, 19, 0⟩
def MEM_Q_STAT_ticket : RegField := ⟨.MEM_Q_STAT, 63, 56⟩
def MEM_Q_STAT_result : RegField := ⟨.MEM_Q_STAT, 55, 52⟩
def MEM_Q_STAT_done : RegField := ⟨.MEM_Q_STAT, 31, 0⟩
def MEM_Q_CNT_lost : RegField := ⟨.MEM_Q_CNT, 63, 48⟩
def MEM_Q_CNT_bad_op : RegField := ⟨.MEM_Q_CNT, 47, 32⟩
def MEM_Q_CNT_flush_drop : RegField := ⟨.MEM_Q_CNT, 31, 16⟩
def MEM_Q_CNT_bad : RegField := ⟨.MEM_Q_CNT, 15, 0⟩
def VCC_CTRL_en : RegField := ⟨.VCC_CTRL, 63, 63⟩
def VCC_CTRL_kind : RegField := ⟨.VCC_CTRL, 1, 0⟩
def VCC_STATUS_state : RegField := ⟨.VCC_STATUS, 63, 61⟩
def VCC_STATUS_account : RegField := ⟨.VCC_STATUS, 59, 48⟩
def VCC_STATUS_ctx : RegField := ⟨.VCC_STATUS, 31, 0⟩
def VCC_JOBQ_en : RegField := ⟨.VCC_JOBQ, 20, 20⟩
def VCC_JOBQ_queue : RegField := ⟨.VCC_JOBQ, 19, 0⟩
def VCC_CNT_pictures : RegField := ⟨.VCC_CNT, 63, 32⟩
def VCC_CNT_void : RegField := ⟨.VCC_CNT, 31, 16⟩
def VCC_CNT_crc_fail : RegField := ⟨.VCC_CNT, 15, 0⟩
def VCC_GANG_en : RegField := ⟨.VCC_GANG, 63, 63⟩
def VCC_GANG_refused : RegField := ⟨.VCC_GANG, 62, 62⟩
def VCC_GANG_size : RegField := ⟨.VCC_GANG, 50, 48⟩
def VCC_GANG_members : RegField := ⟨.VCC_GANG, 47, 0⟩
def VCC_TAP_BASE_base : RegField := ⟨.VCC_TAP_BASE, 47, 20⟩

end Sys2Proof.Machine.F
end

