-- ==== Sys2Proof/Machine/State.lean ====
section
/-! DEFINITION. The state of the DZ7128 as plain data, its faults and refusals, and the state right after reset. -/
namespace Sys2Proof.Machine

/-- What stops a step. Each reason is a case whose outcome the spec leaves not defined and for which it gives no
effect; stopping there is safe. -/
inductive Fault where
  /-- The named rule's table calls the case's outcome not defined. Raised by the meaning that meets it. Safe. -/
  | notDefined (rule : Nat)
  deriving DecidableEq, Repr

/-- What the model gives no meaning to. -/
inductive Refusal where
  /-- A row whose meaning is not written: raised by Dispatch alone. Safe. -/
  | notModelled (mnemonic : String)
  deriving DecidableEq, Repr

/-- Memory as address and byte pairs, addresses strictly rising. -/
abbrev Mem := List Host.Cell

/-- A firing: the entry, the contents it was sent with, its trigger m-time, and whether its message was late (02 R56-R58). -/
structure Firing where
  entry : Nat
  action : Nat
  operand : Nat
  trigger : Nat
  late : Bool
  deriving DecidableEq, Repr

/-- Bookkeeping of a transit entry (02 R55, R58). -/
structure TrnAux where
  sent : Option Firing       -- the message that has left for the next firing
  written : Bool             -- MTB_TRN_CTRL or MTB_TRN_WHEN written since it left
  frame : Option Nat         -- raster kind: the last frame it fired in
  armed : Nat                -- raster kind: the whole nanosecond from which it may fire
  past : Bool                -- m-time kind: past when enabled, written or set (R45, R55)
  deriving DecidableEq, Repr

/-- The meridian (02). Times are counted in units of 2^-16 / K ns, K = 65536 * 10^9 + trim (R41, R43). -/
structure Meridian where
  trim : Int                 -- oscillator trim in force, 2^-16 ppb
  time : Nat                 -- meridian time
  up : Nat                   -- meridian time counted since reset, without the step of a set (R437)
  remain : Int               -- phase still to absorb, same units
  oscPresent : Bool          -- a signal is present on TIME_OSC_IN
  vernierAt : Nat            -- up-time of the last watchdog refresh (R46)
  learnedSec : Nat           -- meridian second of the last learning update (R47)
  learnSkip : Bool           -- MTB_RATE_LEARNED written in the cycle (R44)
  latches : SMap Reg64       -- MTB_TIME_NS latch of each master code (R61)
  ppsOut : Bool
  ppsSec : Nat               -- second of the last PPS_OUT rise
  ppsFall : Nat              -- up-time at which PPS_OUT falls
  ppsIn : Option Nat         -- up-time of the last latched PPS_IN edge
  frameOut : SMap Nat        -- pins of FRAME_OUT that are high, with the up-time at which they fall
  tickAt : Nat               -- m-time of the last tick boundary served
  tickCut : Bool             -- a set has ended the tick in progress (R45)
  trn : SMap TrnAux
  firings : List Firing      -- messages in flight, in the order issued
  tokens : Nat               -- message credit in ns: one message costs 10, 16 messages at most (R57)
  tokensAt : Nat             -- up-time of the last credit
  syncAt : SMap Nat          -- per port: the last Sync interval sent (R49)
  deriving DecidableEq, Repr

/-- One currency of an account (10 R260). -/
structure Currency where
  spent : Nat
  reserve : Int
  g : Nat
  deriving DecidableEq, Repr

/-- An account as the dispatcher holds it: the configuration in force since the last boundary (10 R260, R261). -/
structure Acct where
  sc : Currency
  cc : Currency
  gr : Currency
  dram : Currency
  metered : Bool
  exempt : Bool
  prio : Nat
  exhausted : Bool           -- the state the last news told
  counted : Bool             -- exh_ticks counted in this tick
  deriving DecidableEq, Repr

/-- Where a task of a list is (10 R265, R266): cores are 4 * logical station + k. -/
inductive Place where
  | ready | slot (core : Nat) | running (core : Nat)
  deriving DecidableEq, Repr

/-- A task that holds an entry of its list (10 R266). -/
structure Task where
  record : Nat
  list : Nat
  account : Nat
  deadline : Nat             -- eff_deadline
  arrival : Nat
  place : Place
  deriving DecidableEq, Repr

/-- A task set scheduled by a firing (10 R270). -/
structure SetRun where
  set : Nat
  trigger : Nat
  late : Bool
  deriving DecidableEq, Repr

/-- A task that has ended or faulted on a core and awaits the dispatcher (10 R265). -/
structure TaskEnd where
  core : Nat
  record : Nat
  result : Nat
  trap : Nat
  faultAt : Nat
  value : Nat
  deriving DecidableEq, Repr

/-- The dispatcher (10). -/
structure Dispatcher where
  accts : SMap Acct
  news : List (Nat × Bool)   -- every change of exhaustion, in order: account, exhausted
  heard : List (Agent × Nat) -- how many of them each consumer has received
  tasks : List Task
  arrivals : Nat
  sets : List SetRun
  ended : List TaskEnd
  deriving DecidableEq, Repr

/-- A lane of an accumulator (09 R229). -/
structure Lane where
  v : Int
  ledger : Int
  lost : Bool
  deriving DecidableEq, Repr

/-- An accumulator: eight lanes and the mode bit (09 R228, R229). -/
structure Accum where
  paired : Bool
  lanes : List Lane
  deriving DecidableEq, Repr

/-- An entry of the loop stack (09 R244, R253). -/
structure Loop where
  first : Nat
  last : Nat
  c : Nat
  deriving DecidableEq, Repr

/-- What a core waits for (09 R235, R247, R251; 15 R362). -/
inductive Wait where
  | no
  | queue (gd : Nat) (w : Option Nat)                       -- a reply to a queue or task operation
  | load (dst : DReg) (size : Nat) (sext : Bool) (addr : Nat)  -- a reply to a DRAM load
  | store                                                    -- the completion of a DRAM store
  | move (gd : Nat)
  deriving DecidableEq, Repr

/-- An operation that has left a core (09 R247). -/
inductive NetOp where
  | push (queue : Nat) (word : Word) (last : Bool)
  | pop (queue : Nat)
  | mark (queue k : Nat)
  | rewind (queue k : Nat)
  | release (queue flags : Nat)
  | flush (queue : Nat)
  | tready (rec : Nat)
  | tcancel (rec : Nat)
  deriving DecidableEq, Repr

/-- A move in the mover of a core (09 R249). -/
structure Move where
  src : Nat
  dst : Nat
  tiles : Nat
  doneQ : Nat
  ticket : Nat
  wait : Option Nat          -- the gd that waits
  account : Nat
  done : Nat                 -- tiles written
  status : Option Nat        -- the end, once reached
  deriving DecidableEq, Repr

/-- A translation held by a control core (09 R255). -/
structure Tlb where
  asid : Nat
  vpage : Nat                -- virtual address / 4096 of the page's first byte
  pages : Nat                -- 4 KiB pages covered
  entry : Reg64
  deriving DecidableEq, Repr

/-- A register of a core; `aSat`: an accumulator as the saturating stores read it (09 R235). -/
inductive CReg where
  | g (n : Nat) | w (n : Nat) | p (n : Nat) | m (n : Nat) | c (n : Nat) | a (n : Nat) | aSat (n : Nat) | priv (r : PrivReg)
  deriving DecidableEq, Repr

/-- One core (09). Registers not listed hold 0. -/
structure Core where
  g : SMap Reg64
  w : SMap Word
  p : SMap Reg64
  m : SMap Reg64
  c : SMap Reg64
  acc : SMap Accum
  pc : Nat                   -- bundle index (signal core), bundle address / 16 (control core)
  loops : List Loop          -- innermost first
  task : Option Nat          -- record address of the running task
  started : Bool             -- false on a core that runs nothing
  wait : Wait
  syncing : Bool             -- a SYNC waits
  sleep : Bool               -- a WAIT sleeps (control core)
  ops : List NetOp           -- operations in flight, in issue order
  replies : List (Reg64 × Option Word)   -- status words on their way back
  posted : Nat               -- posted operations outstanding, at most 16
  cycle : Nat                -- cycles of the running task: those of its bundles and those it waited (09 R235)
  ready : List (CReg × Nat)  -- results not yet usable, with the cycle from which they are
  since : Nat                -- up-time at which the bundle in execution issued
  holdAt : Option Nat        -- up-time from which a bundle waits at issue (09 R247)
  ticket : Nat
  moves : List Move
  held : Bool                -- held in reset (control core)
  psr : Reg64
  tvec : Reg64
  epc : Reg64
  cause : Reg64
  tval : Reg64
  ptbr : Reg64
  tlb : List Tlb
  presented : Option Nat     -- the source presented to a control core (15 R356)
  deriving DecidableEq, Repr

/-- A mark of an H-class queue (11 R283). -/
structure QMark where
  stale : Bool
  pos : Nat
  deriving DecidableEq, Repr

/-- A whole item whose last word has arrived and which waits for its commit cycle; `keep`: the unread history items the
pusher keeps (04 R113). -/
structure QReady where
  prod : Agent
  words : List Word
  keep : Option Nat
  deriving DecidableEq, Repr

/-- An open queue (11). `items` holds the items from rel to wr. -/
structure Queue where
  cls : Nat
  slotWords : Nat            -- largest item, words
  log2cap : Nat
  spill : Nat
  idle : Word
  wr : Nat
  rd : Nat
  rel : Nat
  marks : List QMark
  lost : Nat
  flushDrop : Nat
  bad : Nat
  pushed : Nat
  popped : Nat
  items : List (List Word)
  partials : List (Agent × List Word)
  ready : List QReady
  readBufs : List (Agent × List Word)
  feed : Bool                -- feed items are pushed to it (05 R123)
  dropping : List Agent      -- producers whose later words are dropped up to their next last word (R286)
  deriving DecidableEq, Repr

/-- A command of a command register, in its unit's queue; `served` holds the result once its effect is made. -/
structure Cmd where
  op : Nat
  ticket : Nat
  a : Nat
  b : Nat
  c : Nat
  served : Option Nat
  deriving DecidableEq, Repr

/-- The queue manager of a memory node (11 R277, R279). -/
structure QNode where
  cmds : List Cmd
  waiting : List (Agent × Nat × Word × Bool × Option Nat)   -- producer, queue, word, last, keep
  deriving DecidableEq, Repr

/-- A stop command under way (03 R74). -/
structure StopCmd where
  op : Nat
  ticket : Nat
  index : Nat
  applied : List Nat
  acked : List Nat
  deriving DecidableEq, Repr

/-- A frame in a receive buffer (12 R296). -/
structure RxFrame where
  port : Nat
  bytes : List Byte
  arrival : Nat              -- m-time at stage 1
  arrivalUp : Nat            -- the same instant, up-time
  deriving DecidableEq, Repr

/-- A packet that waits for its walk (04 R97). -/
structure Pkt where
  stream : Nat
  pw : Word
  buf : Nat
  deriving DecidableEq, Repr

/-- A buffer that is held (03 R66, 04 R112, 05 R123). -/
structure Buf where
  lg : Nat
  arrival : Nat              -- up-time
  arrivalM : Nat             -- m-time
  len : Nat                  -- bytes of the RTP packet, or of the frame
  tiles : Nat
  copies : Nat               -- copies not yet sent or dropped, and a walk to come
  hold : Bool                -- hold_ms has not passed
  prog : Bool                -- the program holds it (exception or RTCP item)
  ret : Option Nat           -- a local buffer's ret_q
  deriving DecidableEq, Repr

/-- A copy for a leg (04 R97, R109). -/
structure Copy where
  sub : Nat
  leg : Nat
  buf : Nat
  outSeq : Nat
  pw : Word
  marker : Bool
  rtx : Bool
  arrival : Nat              -- up-time
  deriving DecidableEq, Repr

/-- A token bucket pair (03 R77, 04 R110): tc, tp in units of 1 / 8,000,000 byte, in which a rate of 1 kbit/s is one unit
a nanosecond, and the up-time of the last update. -/
structure Bucket where
  tc : Int
  tp : Int
  last : Nat
  deriving DecidableEq, Repr

/-- What a stream's layer identification remembers of a packet (03 R83, R84). -/
structure LayerMem where
  seq : Nat
  ts : Nat
  s : Nat
  t : Nat
  prefixT : Option Nat       -- temporal_id of a type 14 prefix it carried
  deriving DecidableEq, Repr

/-- The forwarder's working state: ingress and egress of the 16 link groups (03, 04). Keys: link group * 2^20 + index
where both matter. -/
structure Forwarder where
  rx : SMap (List RxFrame)           -- receive buffer of a link group
  rxTurn : SMap Nat                  -- the port stage 2 served last (12 R296)
  pool : SMap (List Nat)             -- free buffers of a link group
  bufs : SMap Buf                    -- held buffers by address
  excTokens : SMap (Nat × Nat)       -- exception buckets: thousandths of an item, up-time
  policers : SMap Bucket
  legStop : SMap Bool
  streamBlock : SMap Bool
  flowQ : List Cmd
  stopQ : List StopCmd
  recCache : SMap (List Word)        -- words 3 (as latched) to 7 of cached stream records
  subCache : SMap (List Word)        -- words 2, 3 of cached subscriptions
  legCache : SMap (List Word)        -- tw_seq and words 5-7 of cached legs
  legCfg : SMap (List Word)          -- words 3, 4 of a leg as last loaded (R93)
  legB : SMap Bucket                 -- a leg's buckets (04 R110)
  layers : SMap (List LayerMem)      -- the latest packets of a stream, newest first
  rooms : SMap (List Word)           -- rooms as last loaded, with the device's own fields (04 R107)
  walk : SMap (List Pkt)             -- packets that wait for their walk, by owning link group
  copies : SMap (List Copy)          -- copies on their way, by egress link group
  legQ : SMap (List Copy)            -- leg queues
  selQ : SMap (List Cmd)             -- by link group
  classB : SMap Bucket               -- key: (lg * 32 + port) * 8 + class
  turn : SMap Nat                    -- same key: the leg served last
  deriving DecidableEq, Repr

/-- A frame in a launch-time queue (12 R303, R304). -/
structure LtFrame where
  launch : Nat
  addr : Nat
  len : Nat
  retQ : Nat
  ptpTs : Bool
  bytes : Option (List Byte)         -- a packetiser's packet, built already
  released : Bool
  late : Bool                        -- counted late
  deriving DecidableEq, Repr

/-- The operational gate list of a port (12 R300). -/
structure Gate where
  en : Bool
  mode : Nat
  bank : Nat
  count : Nat
  cycle : Nat
  base : Nat
  cycleAt : Nat                      -- m-time at which the cycle began
  entry : Nat
  entryAt : Nat                      -- m-time at which the entry began
  next : List Nat                    -- transit mode: triggers of firings that have arrived, earliest first
  switchAfter : Nat                  -- pending switch: the earliest m-time
  deriving DecidableEq, Repr

/-- A frame of a video flow being sent (12 R307). -/
structure Vid where
  bn : Nat                           -- boundary, whole ns since the epoch
  start : Nat                        -- bn + Pc
  num : Nat                          -- Pc is den / num ns
  den : Nat
  j : Nat                            -- next packet
  data : List Byte                   -- the surface as it was handed over (07 R197)
  fmt : Nat                          -- out_fmt
  w : Nat
  h : Nat
  cmp : Nat                          -- the composer it came from
  raster : Nat                       -- the raster of its canvas
  deriving DecidableEq, Repr

/-- A packetiser flow (12 R306). -/
structure PktFlow where
  enabled : Bool
  words : List Word
  vids : List Vid
  deriving DecidableEq, Repr

/-- A merge entry (12 R310). -/
structure Merge where
  init : Bool
  max : Nat
  seen : List Nat
  deriving DecidableEq, Repr

/-- A PTP message that the hardware sends (02 R49): its sending time in ns, the receipt time of what it answers in 2^-16 ns, the
correctionField of what it answers, the MAC and IP address of a unicast requester, the message. -/
structure PtpOut where
  due : Nat
  rx : Nat
  corr : Nat
  dest : Option (Nat × Nat)
  msg : List Byte
  deriving DecidableEq, Repr

/-- The ports (12). Port keys: 32 * link group + port. -/
structure Ports where
  refclk : SMap Bool
  busy : SMap Nat                    -- up-time until which a port sends
  active : SMap Nat                  -- up-time of the last activity
  ptp : SMap (List PtpOut)           -- PTP messages that wait
  lt : SMap (List LtFrame)           -- key: 8 * port key + queue
  gates : SMap Gate
  flows : SMap PktFlow               -- key: 256 * link group + flow
  merges : SMap Merge                -- key: 256 * link group + m
  wake : SMap Nat                    -- up-time at which a waking port may send
  deriving DecidableEq, Repr

/-- A codec job on a core (05 R125, 06 R154). -/
structure Job where
  w0 : Word
  w1 : Word
  queue : Nat
  items : List (Word × Word)         -- decode: the picture's feed items, in sequence order
  badItems : List Nat                -- decode: those with a tile that failed its checksum, by place (05 R137)
  feedFails : Nat                    -- decode: such tiles
  spent : Nat                        -- codec-core cycles charged already
  gap : Bool                         -- decode: the picture has a gap
  late : Nat                         -- decode: late items met
  peek : Bool                        -- decode: an item of the next picture is in the core's read buffer
  gang : Option Nat                  -- the gang that works on it
  packets : Nat                      -- encode: packets pushed
  waiting : Option EncPacket         -- encode: the packet that waits for a buffer (06 R171)
  enc : Nat                          -- encode: the encoding whose packets go now; those below have ended
  begun : Bool                       -- encode: a packet of that encoding has gone
  source : List (List (List (List Nat)))  -- encode: of each layer the planes Y, Cb, Cr and Y at 1/4 and 1/16 area (06 R159)
  targets : List (List Nat)          -- encode: the targets of each layer's rows (06 R166)
  inBad : List Nat                   -- encode: input tiles that failed their checksum, by place (06 R160)
  bufWait : Bool
  key : Bool
  keyCause : Nat                     -- sub of event 16
  sweepStart : Bool
  sweepDone : Bool
  tpos : Nat                         -- position in the temporal cycle
  reads : Nat                        -- request items read
  coalesced : Nat
  w3 : Word                          -- word 3 of the context as the job will leave it, debts apart
  paused : Bool
  deriving DecidableEq, Repr

/-- A codec core (05, 06). -/
structure Vcc where
  cur : Option Job
  susp : List Job
  gang : Option Nat                  -- the lead it works for
  idleAt : Nat
  deriving DecidableEq, Repr

/-- A frame of a canvas (07 R181), with the state latched for its boundary: the canvas fields and the insets shown. -/
structure CanFrame where
  bn : Nat                           -- boundary, whole ns since the epoch
  due : Nat                          -- bn + Pc
  number : Nat                       -- canvas frame count
  commit : Bool
  err : Bool
  flipped : Nat
  held : Nat
  rejected : Nat
  releases : List (Nat × Nat)        -- inset and source address of the release items due when it completes (R188)
  fields : List Reg64
  shown : List (Nat × List Reg64)
  deriving DecidableEq, Repr

/-- A canvas (07 R180-R184). `active` holds CTRL, SIZE, OUT, BG, 2110 as taken. -/
structure Canvas where
  active : List Reg64
  running : Bool
  requests : List Nat                -- when the commit requests not yet taken came, whole ns since the epoch (R183)
  frame : Nat                        -- frames since start
  slot : Nat                         -- last complete slot
  last : Option (List Reg64)         -- the fields of the last complete frame in the ring
  comp : Option CanFrame             -- the frame in composition
  next : List CanFrame               -- the frames latched behind it
  lastBn : Option Nat                -- the boundary last latched
  carry : List (Nat × Nat)           -- release items due when the next frame completes
  owed : List (Nat × Nat)            -- those of buffers that a frame still uses, due with the next frame latched (R188)
  deriving DecidableEq, Repr

/-- An inset: pending and active snapshots of CTRL, SRC, SIZE, CROP, DST, FENCE, TARGET (07 R182, R184). -/
structure Inset where
  dirty : Bool
  pend : Option (List Reg64)
  active : Option (List Reg64)
  deriving DecidableEq, Repr

/-- The composers (07). Canvas key: 1024 * composer + canvas; inset key: 64 * canvas key + inset. -/
structure Composers where
  canvases : SMap Canvas
  insets : SMap Inset
  coefs : SMap Reg64                 -- written coefficient words as taken at a latch, by address (R193)
  deriving DecidableEq, Repr

/-- A block in play on an audio output (08 R207, R216). -/
structure PlayBlock where
  b : Nat                            -- boundary, m-time
  item : Option (Word × Word)        -- none: silence
  bad : List Nat                     -- failing tiles of its buffer, by index
  k : Nat                            -- next sample
  deriving DecidableEq, Repr

/-- A block in capture on an audio input (08 R219). -/
structure Capture where
  b : Nat
  addr : Nat
  queue : Nat
  valid : Bool                       -- the port has been locked since b
  deriving DecidableEq, Repr

/-- A serial audio port (08). -/
structure AudPort where
  route : Option (Nat × Reg64)       -- the route in force for blocks before a boundary
  masks : List (Nat × Reg64)         -- masks with the m-time from which each holds, newest first
  stopAt : Option Nat                -- the boundary at which a cleared en stops the port
  latched : Option Nat               -- boundary of the block last latched
  play : List PlayBlock
  inAt : Option Nat                  -- boundary of the input block last begun
  capture : List Capture
  line : List (Nat × List (BitVec 32)) -- internal samples in the output converter: number since the epoch, containers
  fsAt : Nat                         -- m-time up to which frames have gone out
  level : Bool                       -- level of the AES3 output
  csAt : Nat                         -- frames since the last Z of the AES3 output
  csTx : List Reg64                  -- AUD_CS_TX as taken at the last Z (R215)
  deriving DecidableEq, Repr

/-- A block being sent on a network flow (08 R221). -/
structure FlowBlock where
  b : Nat
  w0 : Word
  w1 : Word
  bad : List Nat
  j : Nat                            -- next packet
  deriving DecidableEq, Repr

/-- A network flow (08 R220, R221). -/
structure AudFlow where
  latched : Option Nat
  blocks : List FlowBlock
  deriving DecidableEq, Repr

/-- The audio port nodes (08). Port key: 8 * node + port; flow key: 16 * node + flow. -/
structure Audio where
  ports : SMap AudPort
  flows : SMap AudFlow
  deriving DecidableEq, Repr

/-- A request waiting at a memory channel (13 R319, R320). -/
structure DramReq where
  write : Bool
  tile : Nat
  deriving DecidableEq, Repr

/-- A memory channel (13 R319-R325). Bank numbers: 48 * pseudo-channel + bank. -/
structure Chan where
  reqs : List DramReq
  rows : SMap (Nat × Nat)            -- open row of a bank, up-time of the last access
  inorder : List Nat                 -- banks in in-order mode
  nbr : List (Nat × Nat)             -- neighbour refreshes queued: bank, row
  retry : List DramReq               -- unretired commands
  retryAt : Nat                      -- up-time of the latest issue or replay
  replaying : Bool                   -- a replay whose first command has not retired
  fails : Nat                        -- consecutive replays that ended in an alert
  lastReq : Nat                      -- up-time of the last request
  deriving DecidableEq, Repr

/-- A checksum failure on its way to its home node (13 R331). -/
structure CrcReport where
  kind : TileReader
  store : Bool
  gx : Nat
  gy : Nat
  addr : Nat
  unbacked : Bool
  deriving DecidableEq, Repr

/-- The memory nodes (13). Channel key: 8 * node + channel. -/
structure Memory where
  bands : SMap Nat                   -- channels included by an enabled band, as a 256-bit mask
  chans : SMap Chan
  reports : List CrcReport
  retrainQ : SMap (List Cmd)
  qnodes : SMap QNode
  deferred : List Instr              -- queue operations that wait for others of their cycle (11 R287; the model's own, log 2)
  training : Bool                    -- start-up training has not ended
  deriving DecidableEq, Repr

/-- A job of a general engine (14 R343). -/
structure EngJob where
  words : List Word
  account : Nat                      -- the account that the claim named
  key : List Nat                     -- the key material that the job found in its slot
  read : List Nat                    -- the additional data and payload read so far
  done : Nat                         -- payload bytes processed
  result : Option Nat                -- none while pieces remain
  deriving DecidableEq, Repr

/-- The security node and the engines (14). -/
structure Security where
  epoch : Nat                        -- how often the wrapping keys have been drawn
  gen : Nat
  keyCmd : Option Cmd
  caches : SMap (List Nat)           -- unwrapped key material; key: 65,536 * link group + slot
  jobQ : SMap Nat                    -- job_q of a held engine
  jobs : SMap EngJob                 -- the job in progress on an engine
  reseedAt : Nat                     -- up-time of the last good reseed
  rngFail : Bool                     -- the health tests fail
  conds : Nat                        -- mask of the alarm sources that are active
  deriving DecidableEq, Repr

/-- An interrupt source (15 R355). -/
structure IntSrc where
  latch : Bool
  active : Bool
  claimedBy : Nat
  withheld : Bool
  deriving DecidableEq, Repr

/-- The interrupt controller (15). -/
structure Interrupts where
  src : SMap IntSrc
  claims : SMap (List (Nat × Nat))   -- per target: source and the running priority before its claim, top first
  running : SMap Nat                 -- running priority of a target
  doorbell : SMap Bool               -- per host: something was presentable
  deriving DecidableEq, Repr

/-- An event or record of the log book (16 R366). -/
structure LogRec where
  time : Nat                         -- 96 bits
  code : Nat
  block : Nat
  unit : Nat
  severity : Nat
  prog : Bool
  mode : Nat
  snap : List Nat
  rep : Nat
  seq : Nat
  overrun : Nat
  flushed : Bool
  deriving DecidableEq, Repr

/-- A flush in progress (16 R377, R379). -/
structure FlushRun where
  left : List Nat                    -- ring slots to write, in order
  power : Bool
  deriving DecidableEq, Repr

/-- The log book (16). -/
structure LogBook where
  capture : List LogRec              -- oldest first, at most 16
  pendOver : Nat
  ring : SMap LogRec                 -- by ring slot
  openRec : Option Nat               -- slot of the open record
  seq : Nat
  newest : Nat
  used : Bool                        -- some record has been written
  flush : Option FlushRun
  flushReq : Bool                    -- one further flush is queued
  flushSec : Nat                     -- meridian second of the last timed flush
  flashSlot : Nat
  cmd : Option Cmd
  deriving DecidableEq, Repr

/-- A control cluster (17 R398). -/
structure Cluster where
  held : Bool
  image : Bool
  entry : Nat
  load : Option Cmd
  deriving DecidableEq, Repr

/-- Ownership, service, reset and power (17, 18). -/
structure System where
  leaseEnd : Nat                     -- up-time
  period : Nat                       -- lease period in force, ms
  clusters : SMap Cluster
  loads : SMap Cmd                   -- station loads in progress
  datum : Option Cmd
  sheetCopy : Nat                    -- the copy of the datum store in use
  porst : Bool                       -- PORST_N is low
  sysrst : Bool                      -- SYSRST_N is low
  bootTried : Nat                    -- boot images tried: 0, 1; 2 when boot is over
  bootDone : Bool
  pcie : List Bool                   -- links of HIF0, HIF1
  aliveOn : Bool                     -- ALIVE toggles
  alive : Bool                       -- level of ALIVE
  aliveAt : Nat                      -- up-time of the last toggle
  kickAt : Nat
  twinAt : Option Nat                -- up-time of the last TWIN_ALIVE_IN edge
  capWork : Nat                      -- working cap lowered by thermal warning, W below cap_w in sixteenths
  capAt : Nat                        -- up-time of the last lowering
  tripped : Bool                     -- THERMTRIP_N is low
  firstEst : Bool                    -- no estimate since the last tick boundary
  misses : SMap Nat                  -- missed reads in succession, by rail
  started : Bool                     -- the datum sheet has been read since the last reset
  trims : List Nat                   -- sensor trims in force; none: the built-in defaults
  warm : Bool                        -- the hottest sensor has exceeded warn_c and not yet cooled
  stnHalted : List Nat               -- halted physical stations
  idleAt : SMap Nat                  -- up-time since which a logical station is idle
  draining : List (UnitKind × Nat)   -- codec cores, composers and audio port nodes that drain (10 R271)
  deriving DecidableEq, Repr

/-- A frame on the output of a serial audio port (08 R209, R213, R214): FS at each bit clock where the port drives it, the data bits, none
while the pin is high-impedance, whether they start one bit clock later and change on the falling edge; of AES3 the halves of the line code. -/
structure PortFrame where
  fs : List Bool
  sdo : List (Option Bool)
  delay : Bool
  fall : Bool
  deriving DecidableEq, Repr

/-- What the device has put on its lands and links. -/
inductive Out where
  | frame (lg port : Nat) (bytes : List Byte)
  | msix (hif vec : Nat)
  | mctp (body : List Byte)
  | audio (node port sync : Nat) (frame : PortFrame)
  | hostTile (addr : Nat) (data : List Byte) (poisoned : Bool)
  | avs (mv : Nat)
  | spi (cs offset : Nat)
  deriving DecidableEq, Repr

/-- The answer to the latest register access: data and status (0 done, 1 dropped under R387 or R388, 2 access error
under R10 or R11, 3 no link). -/
structure Bus where
  data : Reg64
  status : Nat
  deriving DecidableEq, Repr

/-- The state of the device. -/
structure State where
  regs : SMap Reg64                  -- the register file by address; an unlisted register holds its reset value
  dram : Mem                         -- channel * 0x6000_0000 + channel byte offset
  stnMem : Mem                       -- physical station * 2^28 + offset as the mover sees it
  ctlMem : Mem                       -- control SRAM, 32 MiB
  flash : Mem                        -- chip select * 2^32 + offset
  sheets : Mem                       -- datum store: copy * 65,536 + offset
  mtb : Meridian
  dis : Dispatcher
  cores : SMap Core                  -- 4 * physical station + k; control core n at 1024 + n
  queues : SMap Queue
  mem : Memory
  fwd : Forwarder
  ports : Ports
  vcc : SMap Vcc
  cmp : Composers
  aud : Audio
  sec : Security
  inc : Interrupts
  log : LogBook
  sys : System
  bus : Bus
  out : List Out
  free : Nat
  pending : List Instr
  deriving DecidableEq, Repr

/-- The meridian at time zero in state FREE (02 R42). -/
def Meridian.start (trim : Int) (osc : Bool) : Meridian :=
  { trim := trim, time := 0, up := 0, remain := 0, oscPresent := osc, vernierAt := 0, learnedSec := 0,
    learnSkip := false, latches := [], ppsOut := false, ppsSec := 0, ppsFall := 0, ppsIn := none, frameOut := [],
    tickAt := 0, tickCut := false, trn := [], firings := [], tokens := 160, tokensAt := 0, syncAt := [] }

/-- The dispatcher with nothing charged and nothing ready (10 R274). -/
def Dispatcher.start : Dispatcher := ⟨[], [], [], [], 0, [], []⟩

/-- The forwarder with every table cache, queue and bitmap empty, and every buffer in its pool (03 R75, R90). -/
def Forwarder.start : Forwarder :=
  { rx := [], rxTurn := [], pool := (List.range 16).map (fun g => (g, Config.rxPool g)), bufs := [], excTokens := [], policers := [],
    legStop := [], streamBlock := [], flowQ := [], stopQ := [], recCache := [], subCache := [], legCache := [],
    legCfg := [], legB := [], layers := [], rooms := [], walk := [], copies := [], legQ := [], selQ := [], classB := [], turn := [] }

/-- The ports with nothing to send; `refclk` is kept across SYSRST_N (12 R293, R312). -/
def Ports.start (refclk : SMap Bool) : Ports :=
  { refclk := refclk, busy := [], active := [], ptp := [], lt := [], gates := [], flows := [], merges := [],
    wake := [] }

/-- The memory nodes untrained with every queue closed (13 R318, R334; 11 R290). -/
def Memory.start : Memory := ⟨[], [], [], [], [], [], true⟩

/-- The log book with every slot free (16 R373). -/
def LogBook.start : LogBook :=
  { capture := [], pendOver := 0, ring := [], openRec := none, seq := 0, newest := 0, used := false, flush := none,
    flushReq := false, flushSec := 0, flashSlot := 0, cmd := none }

/-- The clusters held until boot releases cluster 0 (18 R408), nobody the owner (17 R384), links down (18 R412). -/
def System.start : System :=
  { leaseEnd := 0, period := 100, clusters := (List.range 4).map (fun k => (k, ⟨true, false, 0, none⟩)), loads := [],
    datum := none, sheetCopy := 0, porst := false, sysrst := false, bootTried := 0, bootDone := false,
    pcie := [false, false], aliveOn := false, alive := false, aliveAt := 0, kickAt := 0, twinAt := none, capWork := 0,
    capAt := 0, tripped := false, firstEst := true, misses := [], started := false, trims := [], warm := false, stnHalted := [], idleAt := [],
    draining := [] }

/-- The machine right after the release of PORST_N: every register at its reset value (00 R14), the meridian at zero,
every band disabled, boot not yet begun (18 R411). What the spec leaves open is named in the log: 5, 6, 8, 9, 11, 13-16. -/
def State.reset : State :=
  { regs := [], dram := [], stnMem := [], ctlMem := [], flash := [], sheets := [], mtb := Meridian.start 0 false,
    dis := Dispatcher.start, cores := [], queues := [], mem := Memory.start, fwd := Forwarder.start,
    ports := Ports.start [], vcc := [], cmp := ⟨[], [], []⟩, aud := ⟨[], []⟩,
    sec := { epoch := 1, gen := 0, keyCmd := none, caches := [], jobQ := [], jobs := [], reseedAt := 0, rngFail := false, conds := 0 },
    inc := ⟨[], [], [], []⟩, log := LogBook.start, sys := System.start, bus := ⟨0, 0⟩, out := [], free := 0, pending := [] }

end Sys2Proof.Machine
end

