-- ==== Sys2Proof/Machine/Ops.lean ====
section
/-! DEFINITION. The named operations every meaning is written over: registers and their fields, bytes and words of
DRAM through the bands, tiles and their checksums, meridian time, log events, queue items, what the device sends. -/
namespace Sys2Proof.Machine

/-! ### Registers (00 R11-R14) -/

/-- Is source number `n` a level source (15 R353)? -/
def levelSource (n : Nat) : Bool := n == 0 || (0x100 ≤ n && n < 0x800)

/-- A register's value after reset (00 R14): the tables' fields, and the fields whose reset depends on the index. -/
def resetReg (r : RegAddr) : Reg64 :=
  let v := r.name.info.resetWord
  match r.name with
  | .DEV_ID => putFld v 31 24 (bnat Config.secured)
  | .DEV_STN_MAP => putFld v 7 0 (34 * (r.idx / 32) + r.idx % 32)
  | .DIS_STN_STATE => putFld v 7 0 (34 * (r.idx / 32) + r.idx % 32)
  | .INC_SRC => putFld v 61 61 (bnat (levelSource r.idx))
  | .SEC_STATUS => putFld v 63 63 (bnat Config.secured)
  | .SEC_LOCK => putFld v 63 61 (if r.idx % 6 ≤ 3 then 1 else 0)
  | .CMP_HCOEF => Config.coef 0 r.idx
  | .CMP_VCOEF => Config.coef 1 r.idx
  | .MTB_ASYM => Config.defaultAsym r.idx
  | _ => v

/-- The value a register of the register file holds. -/
def State.reg (s : State) (n : RegName) (u : Nat := 0) (i : Nat := 0) : Reg64 :=
  s.regs.getD (RegAddr.addr ⟨n, u, i⟩) (resetReg ⟨n, u, i⟩)

/-- A register set whole. -/
def State.setReg (s : State) (n : RegName) (v : Reg64) (u : Nat := 0) (i : Nat := 0) : State :=
  { s with regs := s.regs.put (RegAddr.addr ⟨n, u, i⟩) v }

/-- A named field of a register. -/
def State.get (s : State) (f : RegField) (u : Nat := 0) (i : Nat := 0) : Nat := fld (s.reg f.reg u i) f.hi f.lo

/-- Is a one-bit field 1? -/
def State.flag (s : State) (f : RegField) (u : Nat := 0) (i : Nat := 0) : Bool := s.get f u i == 1

/-- A named field set. -/
def State.put (s : State) (f : RegField) (n : Nat) (u : Nat := 0) (i : Nat := 0) : State :=
  s.setReg f.reg (putFld (s.reg f.reg u i) f.hi f.lo n) u i

/-- A counter field that saturates, raised by `k`. -/
def State.count (s : State) (f : RegField) (k : Nat := 1) (u : Nat := 0) (i : Nat := 0) : State :=
  s.put f (satAdd (f.hi + 1 - f.lo) (s.get f u i) k) u i

/-- A counter field that wraps, raised by `k`. -/
def State.bump (s : State) (f : RegField) (k : Nat := 1) (u : Nat := 0) (i : Nat := 0) : State :=
  s.put f (s.get f u i + k) u i

/-- What a write of `v` leaves by the access codes alone (00 R12). -/
def codedWrite (i : RegInfo) (old v : Reg64) : Reg64 :=
  let rw := i.mask [.rw]
  let c := i.mask [.w1c]
  let st := i.mask [.w1s]
  ((old &&& ~~~rw) ||| (v &&& rw)) &&& ~~~(v &&& c) ||| (v &&& st)

/-- What a read shows by the access codes alone: write-only and reserved bits read 0 (00 R12). -/
def codedRead (i : RegInfo) (old : Reg64) : Reg64 := old &&& i.mask [.rw, .ro, .w1c, .w1s, .rc]

/-- The register with its clear-on-read fields cleared (00 R12). -/
def clearedOnRead (i : RegInfo) (old : Reg64) : Reg64 := old &&& ~~~(i.mask [.rc])

/-! ### Time (02 R38-R43, R437) -/

/-- K of the time unit 2^-16 / K ns. -/
def Meridian.k (m : Meridian) : Nat := (65536 * 10 ^ 9 + m.trim).toNat

/-- Units in one nanosecond. -/
def Meridian.ns (m : Meridian) : Nat := 65536 * m.k

/-- Whole nanoseconds since the epoch. -/
def State.nanos (s : State) : Nat := s.mtb.time / s.mtb.ns

/-- m-time (02 R39). DESIGN CHOICE (log 95): every unit's replica is the meridian itself. -/
def State.mtime (s : State) : Nat := s.nanos % 2 ^ 64

/-- Nanoseconds counted since reset: the clock of every duration (02 R437). -/
def State.upNs (s : State) : Nat := s.mtb.up / s.mtb.ns

/-- The fraction of a nanosecond, 16 bits. -/
def State.frac (s : State) : Nat := s.mtb.time % s.mtb.ns / s.mtb.k

/-- A 96-bit timestamp from whole nanoseconds and a fraction (02 R38). -/
def stampOf (ns frac : Nat) : Nat := (ns / 10 ^ 9 % 2 ^ 48) * 2 ^ 48 + (ns % 10 ^ 9) * 2 ^ 16 + frac

/-- The present meridian timestamp. -/
def State.stamp (s : State) : Nat := stampOf s.nanos s.frac

/-- Is the m-time `t` reached (02 R55: past when the difference mod 2^64 is at least 2^63, or zero)? -/
def State.reached (s : State) (t : Nat) : Bool := (s.mtime + 2 ^ 64 - t % 2 ^ 64) % 2 ^ 64 < 2 ^ 63

/-- The waiting commands of the present cycle: those before the next that advances the meridian (log 2). -/
def State.sameCycle (s : State) : List Instr :=
  s.pending.takeWhile (fun c => match c with
    | .meridianAdvance n => n == 0
    | _ => true)

/-! ### Bytes of memory -/

/-- The byte at `a`; `d` where nothing is listed. -/
def Mem.get (d : Byte) (m : Mem) (a : Nat) : Byte := SMap.getD m a d

/-- The byte at `a` written; writing `d` removes the entry. -/
def Mem.set (d : Byte) (m : Mem) (a : Nat) (b : Byte) : Mem := if b = d then SMap.del m a else SMap.put m a b

/-- `n` bytes from `a`. -/
def Mem.gets (d : Byte) (m : Mem) (a : Nat) : Nat → List Byte
  | 0 => []
  | n + 1 => m.get d a :: Mem.gets d m (a + 1) n

/-- Bytes written from `a`. -/
def Mem.sets (d : Byte) : Mem → Nat → List Byte → Mem
  | m, _, [] => m
  | m, a, b :: bs => Mem.sets d (m.set d a b) (a + 1) bs

/-- What an unlisted byte of DRAM, station memory, control SRAM or the datum store reads as: 0 (log 5, 14). -/
abbrev dflt : Byte := 0

/-- Canonical form: addresses strictly rise and no entry holds what an unlisted address reads as. -/
def Mem.wf (d : Byte) (m : Mem) : Bool := SMap.rising m && m.all (fun c => c.2 != d)

/-! ### The address map (13 R314-R316) -/

/-- The included channels of a band's mask, ascending, from channel `lo` for `n` channels. -/
def channels (mask lo n : Nat) : List Nat := (List.range n).map (lo + ·) |>.filter (fun c => mask.testBit c)

/-- The place of byte address `pa`'s tile: channel and channel-local tile index (13 R316); none where unbacked. -/
def State.tilePlace (s : State) (pa : Nat) : Option (Nat × Nat) :=
  let b := pa / 2 ^ 34
  let o := pa % 2 ^ 34
  if b ≥ 24 ∨ s.get F.MEM_BAND_en 0 b = 0 then none else
    let mask := s.mem.bands.getD b 0
    let pick (list : List Nat) (t : Nat) : Option (Nat × Nat) :=
      let m := list.length
      if m = 0 then none else
        let off := t / m
        if off ≥ 131072 then none else
          match list[(t % m + off) % m]? with
          | none => none
          | some ch => let u := 131072 * b + off
            if u ≥ 3121152 then none else some (ch, u)
    match s.get F.MEM_BAND_order 0 b with
    | 0 => pick (channels mask 0 256) (o / 512)
    | 1 => pick (channels mask (64 * (o / 2 ^ 32)) 64) (o % 2 ^ 32 / 512)
    | _ =>
      let ch := o / 2 ^ 26
      let u := 131072 * b + o % 2 ^ 26 / 512
      if mask.testBit ch = false ∨ u ≥ 3121152 then none else some (ch, u)

/-- The byte number in `State.dram` of a channel's byte offset. -/
def dramNo (ch off : Nat) : Nat := ch * 0x60000000 + off

/-- Is a channel working (13 R324: a failed channel reads zeros and drops writes)? -/
def State.chanOk (s : State) (ch : Nat) : Bool := s.get F.MEM_CHAN_STAT_state (ch / 8) (ch % 8) != 3

/-- The byte number of the first byte of a tile; none where unbacked or the channel has failed. -/
def State.tileBase (s : State) (pa : Nat) : Option Nat :=
  match s.tilePlace pa with
  | none => none
  | some (ch, u) => if s.chanOk ch then some (dramNo ch (512 * u)) else none

/-- `n` bytes of DRAM from `pa`, within one tile: zeros where unbacked (13 R317). -/
def State.rdTile (s : State) (pa n : Nat) : List Byte :=
  match s.tileBase pa with
  | none => List.replicate n 0
  | some b => Mem.gets dflt s.dram (b + pa % 512) n

/-- `k` whole or partial tiles' worth of reading, `n` bytes in all. -/
def State.rdFrom (s : State) : Nat → Nat → Nat → List Byte
  | 0, _, _ => []
  | k + 1, pa, n =>
    let here := min n (512 - pa % 512)
    s.rdTile pa here ++ (if n ≤ here then [] else s.rdFrom k (pa + here) (n - here))

/-- `n` bytes of DRAM from `pa`. -/
def State.rd (s : State) (pa n : Nat) : List Byte := s.rdFrom (n / 512 + 2) pa n

/-- Bytes written within one tile: dropped and counted where unbacked (13 R317). -/
def State.wrTile (s : State) (pa : Nat) (bs : List Byte) : State :=
  match s.tilePlace pa with
  | none => s.count F.MEM_MAP_ERR_unbacked
  | some (ch, u) => if s.chanOk ch then { s with dram := Mem.sets dflt s.dram (dramNo ch (512 * u) + pa % 512) bs } else s

/-- Bytes written from `pa`, tile by tile. -/
def State.wrFrom : Nat → State → Nat → List Byte → State
  | 0, s, _, _ => s
  | k + 1, s, pa, bs =>
    let here := min bs.length (512 - pa % 512)
    let s := s.wrTile pa (bs.take here)
    if bs.length ≤ here then s else State.wrFrom k s (pa + here) (bs.drop here)

/-- Bytes of DRAM written from `pa`. -/
def State.wr (s : State) (pa : Nat) (bs : List Byte) : State :=
  if bs.isEmpty then s else State.wrFrom (bs.length / 512 + 2) s pa bs

/-- A read access at `pa` counted where it is unbacked (13 R317). -/
def State.touch (s : State) (pa : Nat) : State :=
  match s.tilePlace pa with
  | none => s.count F.MEM_MAP_ERR_unbacked
  | some _ => s

/-- The 128-bit word at `pa` (00 R6). -/
def State.word (s : State) (pa : Nat) : Word := BitVec.ofNat 128 (leNat (s.rd pa 16))

/-- A word written. -/
def State.setWord (s : State) (pa : Nat) (w : Word) : State := s.wr pa (leBytes 16 w.toNat)

/-- A field of a word in memory written. -/
def State.putWord (s : State) (pa hi lo n : Nat) : State := s.setWord pa (putFld (s.word pa) hi lo n)

/-- `n` consecutive words from `pa`. -/
def State.words (s : State) (pa n : Nat) : List Word := (List.range n).map (fun i => s.word (pa + 16 * i))

/-- Consecutive words written from `pa`. -/
def State.setWords : State → Nat → List Word → State
  | s, _, [] => s
  | s, pa, w :: ws => State.setWords (s.setWord pa w) (pa + 16) ws

/-! ### Checksums and tiles (13 R326-R331) -/

/-- One step of a reflected CRC over a bit. -/
def crcBit (poly c : Nat) (b : Bool) : Nat :=
  if (c.testBit 0) != b then (c >>> 1) ^^^ poly else c >>> 1

/-- A reflected CRC over a byte, bit 0 first. -/
def crcByte (poly c : Nat) (b : Byte) : Nat :=
  (List.range 8).foldl (fun c i => crcBit poly c (b.toNat.testBit i)) c

/-- A reflected CRC over bytes. -/
def crcOver (poly init : Nat) (bs : List Byte) : Nat := bs.foldl (crcByte poly) init

/-- CRC-32C of RFC 3720 with a seed (03 R69). -/
def crc32cSeed (seed : Nat) (bs : List Byte) : Nat := crcOver 0x82F63B78 seed bs ^^^ 0xFFFFFFFF

/-- CRC-32C (13 R326). -/
def crc32c (bs : List Byte) : Nat := crc32cSeed 0xFFFFFFFF bs

/-- Does an enabled window guard the tile of `pa` (13 R326)? -/
def State.guarded (s : State) (pa : Nat) : Bool :=
  (List.range 32).any (fun i =>
    s.flag F.MEM_GUARD_en 0 i &&
    decide (s.get F.MEM_GUARD_base 0 i * 2 ^ 20 ≤ pa ∧
      pa < (s.get F.MEM_GUARD_base 0 i + s.get F.MEM_GUARD_size_mib 0 i) * 2 ^ 20))

/-- The byte number of a tile's checksum word (13 R315). -/
def sumNo (ch u : Nat) : Nat := dramNo ch (0x5F400000 + 4 * u)

/-- The stored checksum of the tile at `pa`. -/
def State.storedSum (s : State) (pa : Nat) : Nat :=
  match s.tilePlace pa with
  | none => 0
  | some (ch, u) => leNat (Mem.gets dflt s.dram (sumNo ch u) 4)

/-- The checksum word of the tile at `pa` set. -/
def State.setSum (s : State) (pa n : Nat) : State :=
  match s.tilePlace pa with
  | none => s
  | some (ch, u) => if s.chanOk ch then { s with dram := Mem.sets dflt s.dram (sumNo ch u) (leBytes 4 n) } else s

/-- The 512 bytes of the tile at `pa`. -/
def State.tile (s : State) (pa : Nat) : List Byte := s.rdTile (pa / 512 * 512) 512

/-- Does the tile at `pa` pass a verified read (13 R317, R324, R326, R329)? Unguarded tiles are not checked where memory backs them
(DEDUCED, log 98). -/
def State.verifies (s : State) (pa : Nat) : Bool :=
  match s.tileBase pa with
  | none => false
  | some _ => !s.guarded pa || s.storedSum pa == crc32c (s.tile pa)

/-- A whole tile written with its checksum where it is guarded (13 R327). -/
def State.putTile (s : State) (pa : Nat) (data : List Byte) : State :=
  let d := (data ++ List.replicate 512 0).take 512
  let s := s.wrTile (pa / 512 * 512) d
  if s.guarded pa then s.setSum pa (crc32c d) else s

/-- Whole tiles written from `pa`. -/
def State.putTiles : State → Nat → List (List Byte) → State
  | s, _, [] => s
  | s, pa, t :: ts => State.putTiles (s.putTile pa t) (pa + 512) ts

/-- Bytes cut into tiles, the last filled with zeros. -/
def tilesOf : Nat → List Byte → List (List Byte)
  | 0, _ => []
  | k + 1, bs => if bs.isEmpty then [] else (bs.take 512 ++ List.replicate (512 - min 512 bs.length) 0) :: tilesOf k (bs.drop 512)

/-- The tile at `pa` poisoned (13 R328). -/
def State.poison (s : State) (pa : Nat) : State := s.setSum pa (crc32c (s.tile pa) ^^^ 1)

/-- A failure reported to the tile's home node, or to node 0 for an unbacked address (13 R317, R329, R331). -/
def State.reportFail (s : State) (kind : TileReader) (gx gy pa : Nat) : State :=
  let un := (s.tilePlace pa).isNone
  { s with mem := { s.mem with reports := s.mem.reports ++ [⟨kind, true, gx, gy, pa / 512 * 512, un⟩] } }

/-- The failing tiles of a buffer of `n` tiles from `pa`, reported; answers how many. -/
def State.verifyTiles (kind : TileReader) (gx gy : Nat) : Nat → Nat → State → State × List Nat
  | 0, _, s => (s, [])
  | n + 1, pa, s =>
    let s := s.touch pa
    if s.verifies pa then State.verifyTiles kind gx gy n (pa + 512) s
    else let (s, l) := State.verifyTiles kind gx gy n (pa + 512) (s.reportFail kind gx gy pa)
      (s, pa :: l)

/-! ### The log book's capture (16 R367-R370) -/

/-- The two snapshot slots of a register named whole (16 R367). -/
def snapOf (v : Reg64) : List Nat := [fld v 31 0, fld v 63 32]

/-- Two events are identical (16 R370). -/
def LogRec.same (a b : LogRec) : Bool :=
  a.code == b.code && a.block == b.block && a.unit == b.unit && a.severity == b.severity && a.prog == b.prog

/-- The first entry like `e` takes one more repeat. -/
def mergeRepeat (e : LogRec) : List LogRec → List LogRec
  | [] => []
  | a :: as => if a.same e then { a with rep := satAdd 16 a.rep 1 } :: as else a :: mergeRepeat e as

/-- An event arrives at the capture queue: merged, queued, or lost as an overrun (16 R370). -/
def State.logArrive (s : State) (e : LogRec) : State :=
  if s.log.capture.any (·.same e) then { s with log := { s.log with capture := mergeRepeat e s.log.capture } }
  else if s.log.capture.length < 16 then { s with log := { s.log with capture := s.log.capture ++ [e] } }
  else
    let s := { s with log := { s.log with pendOver := s.log.pendOver + 1 } }
    (s.count F.LOG_CNT_overrun).put F.LOG_STATUS_overrun_evt 1

/-- The device raises an event with the registers of its snapshot (16 R366, R367, R369). -/
def State.logEv (s : State) (code block unit severity : Nat) (snap : List Nat) (prog : Bool := false) : State :=
  s.logArrive { time := s.stamp, code := code, block := block, unit := unit, severity := severity, prog := prog,
                mode := s.get F.LOG_CTRL_mode, snap := snap.take 8, rep := 0, seq := 0, overrun := 0, flushed := false }

/-! ### The device seen from outside (18 R412) -/

/-- Is the device in reset? -/
def State.inReset (s : State) : Bool := s.sys.porst || s.sys.sysrst

/-- A cluster's state. -/
def State.cluster (s : State) (k : Nat) : Cluster := s.sys.clusters.getD k ⟨true, false, 0, none⟩

/-- Are the interfaces as in reset: in reset, after a thermal trip, or while no control program runs after a boot failure (18 R412,
R419)? -/
def State.dark (s : State) : Bool :=
  s.inReset || s.sys.tripped || (s.get F.PWR_BOOT_STAT_result == 3 && (List.range 4).all (fun k => (s.cluster k).held))

/-! ### Queue items (11 R278) -/

/-- The value that every queue field uses for none (11 R275). -/
def noQueue : Nat := 0xFFFFF

/-- The home node of a queue (11 R275). -/
def homeNode (q : Nat) : Nat := q / 32768

/-- An item counted as pushed to a bad queue (11 R290). -/
def State.badOp (s : State) (q : Nat) : State := s.count F.MEM_Q_CNT_bad_op 1 (homeNode q)

/-- A queue of the state set. -/
def State.setQueue (s : State) (q : Nat) (a : Queue) : State := { s with queues := s.queues.put q a }

/-- The manager of a node. -/
def State.qnode (s : State) (n : Nat) : QNode := s.mem.qnodes.getD n ⟨[], []⟩

/-- The manager of a node set. -/
def State.setQnode (s : State) (n : Nat) (x : QNode) : State := { s with mem := { s.mem with qnodes := s.mem.qnodes.put n x } }

/-- Partial items held by a node (R279). -/
def State.partialCount (s : State) (n : Nat) : Nat :=
  (s.queues.filter (fun e => homeNode e.1 == n)).foldl (fun k e => k + e.2.partials.length) 0

/-- Read buffers held by a node (R279). -/
def State.bufferCount (s : State) (n : Nat) : Nat :=
  (s.queues.filter (fun e => homeNode e.1 == n)).foldl (fun k e => k + e.2.readBufs.length) 0

/-- The entry of an agent in a list kept by agent. -/
def byAgent {α : Type} (l : List (Agent × α)) (p : Agent) : Option α := (l.find? (fun e => e.1 == p)).map (·.2)

/-- The list without an agent's entry. -/
def without {α : Type} (l : List (Agent × α)) (p : Agent) : List (Agent × α) := l.filter (fun e => e.1 != p)

/-! ### Words and items (R278, R279) -/

/-- A whole item joins those that wait for their commit cycle; an oversized one is discarded and counted (R278). -/
def State.itemWhole (s : State) (p : Agent) (q : Nat) (a : Queue) (ws : List Word) (keep : Option Nat := none) : State :=
  if ws.length > a.slotWords then
    (s.setQueue q { a with bad := satAdd 16 a.bad 1 }).count F.MEM_Q_CNT_bad 1 (homeNode q)
  else s.setQueue q { a with ready := a.ready ++ [⟨p, ws, keep⟩] }

/-- Can the node take this word: does it continue an item, is it dropped, or is an entry free for a first word? -/
def State.canTake (s : State) (p : Agent) (q : Nat) : Bool :=
  match s.queues.get? q with
  | none => true
  | some a => a.dropping.contains p || (byAgent a.partials p).isSome || decide (s.partialCount (homeNode q) < 256)

/-- The node evaluates a word (R278, R286, R290). -/
def State.takeWord (s : State) (p : Agent) (q : Nat) (w : Word) (last : Bool) (keep : Option Nat := none) : State :=
  match s.queues.get? q with
  | none => s.badOp q
  | some a =>
    if a.dropping.contains p then
      let d := if last then a.dropping.filter (· != p) else a.dropping
      (s.setQueue q { a with dropping := d, flushDrop := satAdd 16 a.flushDrop 1 }).count F.MEM_Q_CNT_flush_drop 1 (homeNode q)
    else
      let ws := (byAgent a.partials p).getD [] ++ [w]
      let a := { a with partials := without a.partials p }
      if last then s.itemWhole p q a ws keep else s.setQueue q { a with partials := a.partials ++ [(p, ws)] }

/-- One pass over the waiting words: each is taken once its producer has none before it and the node can take it. -/
def State.servePass (s : State) : List (Agent × Nat × Word × Bool × Option Nat) → List Agent → State × List (Agent × Nat × Word × Bool × Option Nat)
  | [], _ => (s, [])
  | (p, q, w, l, d) :: rest, held =>
    if held.contains p || !s.canTake p q then
      let (s, keep) := State.servePass s rest (p :: held)
      (s, (p, q, w, l, d) :: keep)
    else State.servePass (s.takeWord p q w l d) rest held

/-- Passes over a node's waiting words until none moves. -/
def State.serveWaiting (n : Nat) : Nat → State → State
  | 0, s => s
  | k + 1, s =>
    let ws := (s.qnode n).waiting
    let (s1, keep) := s.servePass ws []
    let s1 := s1.setQnode n { s1.qnode n with waiting := keep }
    if keep.length = ws.length then s1 else State.serveWaiting n k s1

/-- A word arrives at its queue's home node (R278, R279): taken, or waiting behind its producer's waiting words. -/
def State.pushWord (s : State) (p : Agent) (q : Nat) (w : Word) (last : Bool) (keep : Option Nat := none) : State :=
  let n := homeNode q
  if (s.qnode n).waiting.any (fun e => e.1 == p) || !s.canTake p q then
    s.setQnode n { s.qnode n with waiting := (s.qnode n).waiting ++ [(p, q, w, last, keep)] }
  else
    let s := s.takeWord p q w last keep
    State.serveWaiting n (s.qnode n).waiting.length s

/-- An item of a hardware unit arrives at the queue's home node word by word (11 R278, R279), or is dropped as bad (11 R290). `needF`:
the field names an F-class queue; `keep`: the history items its leg keeps (04 R113). -/
def State.pushItem (s : State) (prod : Agent) (q : Nat) (ws : List Word) (needF : Bool := true) (keep : Option Nat := none) : State :=
  if q = noQueue then s
  else if needF && ((s.queues.get? q).map (fun a => a.cls != 1)).getD true then s.badOp q
  else if s.queues.get? q = none then s.badOp q
  else ws.zipIdx.foldl (fun (s : State) e => s.pushWord prod q e.1 (e.2 + 1 == ws.length) keep) s

/-- The unread count of a queue (11 R276). -/
def Queue.unread (a : Queue) : Nat := (a.wr + 2 ^ 17 - a.rd) % 2 ^ 17

/-- The occupancy of a queue (11 R276). -/
def Queue.occ (a : Queue) : Nat := (a.wr + 2 ^ 17 - a.rel) % 2 ^ 17

/-- Items read but not released. -/
def Queue.readNo (a : Queue) : Nat := (a.rd + 2 ^ 17 - a.rel) % 2 ^ 17

/-- The oldest unread item. -/
def Queue.head (a : Queue) : Option (List Word) := a.items[a.readNo]?

/-- The queue after the item at rd is taken: F-class frees it, H-class only reads on (11 R280). -/
def Queue.take (a : Queue) : Queue :=
  if a.cls = 1 then
    { a with items := a.items.drop 1, rd := (a.rd + 1) % 2 ^ 17, rel := (a.rel + 1) % 2 ^ 17, popped := (a.popped + 1) % 2 ^ 32 }
  else { a with rd := (a.rd + 1) % 2 ^ 17, popped := (a.popped + 1) % 2 ^ 32 }

/-- A hardware unit pops a whole item of an open queue with something unread (11 R280, R281); words that it lacks of the unit's layout are
taken as zero (log 99). -/
def State.popItem (s : State) (q : Nat) : Option (List Word × State) :=
  match s.queues.get? q with
  | none => none
  | some a =>
    if a.unread = 0 then none else
      match a.head with
      | none => none
      | some i => some (i, { s with queues := s.queues.put q a.take })

/-! ### What the device sends, free values -/

/-- Something is put on a land or link. -/
def State.emit (s : State) (o : Out) : State := { s with out := s.out ++ [o] }

/-- A fresh free value (log 4). -/
def State.fresh (s : State) : Nat × State := (Config.freeValue s.free, { s with free := s.free + 1 })

/-- A waiting store, MTIME and so on: the words of a one-word item with an m-time on top. -/
def State.stampWord (s : State) (low : Word) : Word := putFld low 127 64 s.mtime

end Sys2Proof.Machine
end

