-- ==== Sys2Proof/Machine/AudioLine.lean ====
section
/-! DEFINITION. The lines of the serial audio ports (08 R209, R211, R214): slots and containers, frame syncs, TDM and I2S frames, AES3
frames in biphase-mark code. -/
namespace Sys2Proof.Machine

/-- The width of a slot by slot_bits. -/
def slotWidth (code : Nat) : Nat := 16 + 8 * code

/-- The container that a received sample fills: a slot of a width code, or an AES3 subframe (R209, R214). -/
def lineContainer (aes3 : Bool) (code : Nat) (x : PortSample) : BitVec 32 :=
  let n := x.bits.toNat
  if aes3 then BitVec.ofNat 32 (n % 2 ^ 24 * 256 + bnat (!x.v && !x.err) * 128 + bnat x.u * 64 + bnat x.c * 32 + bnat x.z * 16)
  else
    let data := match code with
      | 0 => n % 2 ^ 16 * 2 ^ 16
      | 1 => n % 2 ^ 24 * 256
      | _ => n % 2 ^ 32 / 256 * 256
    BitVec.ofNat 32 (data + 128)

/-- The bits of a number of `w` bits, most significant first. -/
def bitsMsb (w n : Nat) : List Bool := (List.range w).map (fun i => n.testBit (w - 1 - i))

/-- The bits of a slot that carries a container (R209). -/
def slotBits (code : Nat) (v : BitVec 32) : List Bool :=
  match code with
  | 0 => bitsMsb 16 (fld v 31 16)
  | 1 => bitsMsb 24 (fld v 31 8)
  | _ => bitsMsb 32 (fld v 31 8 * 256)

/-- FS over one frame of `slots` slots: in TDM one BCLK or one slot high, in I2S low for channel 0 (R209). -/
def frameSync (i2s wide inv : Bool) (slots width : Nat) : List Bool :=
  (List.range (slots * width)).map (fun i => (if i2s then decide (width ≤ i) else decide (i < (if wide then width else 1))) != inv)

/-- Biphase-mark code from a line level: two halves a bit, and the level after. -/
def biphase : Bool → List Bool → List Bool × Bool
  | lvl, [] => ([], lvl)
  | lvl, b :: bs =>
    let (l, e) := biphase (if b then lvl else !lvl) bs
    ((!lvl) :: (if b then lvl else !lvl) :: l, e)

/-- The preambles of AES3 after a low level: X, Y, Z (log 57). -/
def preamble : Nat → List Bool
  | 0 => [true, true, true, false, false, false, true, false]
  | 1 => [true, true, true, false, false, true, false, false]
  | _ => [true, true, true, false, true, false, false, false]

/-- A subframe on the line: preamble, audio least significant bit first, V, U, C and even parity (R214; log 57). -/
def subframe (lvl : Bool) (pre : Nat) (v : BitVec 32) : List Bool × Bool :=
  let data := (bitsMsb 24 (fld v 31 8)).reverse ++ [!bit v 7, bit v 6, bit v 5]
  let parity := (data.filter id).length % 2 == 1
  let head := (preamble pre).map (· != lvl)
  let (l, e) := biphase (head.getLastD lvl) (data ++ [parity])
  (head ++ l, e)

/-- An AES3 frame on the line: X, or Z at the start of a block, then Y. -/
def aes3Frame (lvl : Bool) (a b : BitVec 32) : List Bool × Bool :=
  let (l, e) := subframe lvl (if bit a 4 then 2 else 0) a
  let (m, e) := subframe e 1 b
  (l ++ m, e)

/-- Port frames up to an m-time, at `rate` frames a second in 2^-32: the number of the last one whose sync has come. -/
def framesBy (rate t : Nat) : Nat := t * rate / (10 ^ 9 * 2 ^ 32)

/-- The sync of frame g: the first whole nanosecond at or after its instant (R211). -/
def syncTime (rate g : Nat) : Nat := ceilDiv (g * 10 ^ 9 * 2 ^ 32) rate

/-- Which internal sample, times `rate`, stands at the lands at the sync of frame g: 0.75 ms and one frame earlier (R212, R223). -/
def linePos (rate g : Nat) : Int := ((g : Int) - 1) * (48000 * 2 ^ 32 : Nat) - 36 * rate

end Sys2Proof.Machine
end

