-- ==== Sys2Proof/Machine/Crypto.lean ====
section
/-! DEFINITION. The ciphers and hashes that 14 R337, R343, R345 and 03 R79 name by their standards: AES (FIPS 197), GCM
(SP 800-38D), SHA-1 and HMAC (FIPS 180-4, 198-1). The spec names the standards and does not restate them (log 37). -/
namespace Sys2Proof.Machine

/-! ### AES -/

/-- Multiplication by x in the field of AES. -/
def xtime (a : Nat) : Nat := if a < 128 then 2 * a else (2 * a) ^^^ 0x11B

/-- Multiplication in the field of AES. -/
def gmul (a b : Nat) : Nat :=
  ((List.range 8).foldl (fun (p : Nat × Nat) i => (if b.testBit i then p.1 ^^^ p.2 else p.1, xtime p.2)) (0, a)).1

/-- The inverse in the field of AES, a^254. -/
def ginv (a : Nat) : Nat :=
  let a2 := gmul a a
  let a4 := gmul a2 a2
  let a8 := gmul a4 a4
  let a16 := gmul a8 a8
  let a32 := gmul a16 a16
  let a64 := gmul a32 a32
  let a128 := gmul a64 a64
  gmul (gmul (gmul a2 a4) (gmul a8 a16)) (gmul (gmul a32 a64) a128)

/-- A byte rotated left. -/
def rotl8 (a n : Nat) : Nat := (a * 2 ^ n + a / 2 ^ (8 - n)) % 256

/-- The S-box: the inverse, then the affine map. -/
def subByte (a : Nat) : Nat :=
  let b := ginv a
  b ^^^ rotl8 b 1 ^^^ rotl8 b 2 ^^^ rotl8 b 3 ^^^ rotl8 b 4 ^^^ 0x63

/-- Bytes as numbers. -/
abbrev Bytes := List Nat

/-- Two byte strings added bit by bit, as long as the shorter. -/
def xorB (a b : Bytes) : Bytes := List.zipWith (· ^^^ ·) a b

/-- Element i of a byte string. -/
def at0 (a : Bytes) (i : Nat) : Nat := (a[i]?).getD 0

/-- The next word of a key schedule of `nk` words (words newest first). -/
def nextKeyWord (nk i rcon : Nat) (ws : List Bytes) : Bytes :=
  let prev := (ws[0]?).getD []
  let back := (ws[nk - 1]?).getD []
  let t := if i % nk = 0 then xorB ((prev.drop 1 ++ prev.take 1).map subByte) [rcon, 0, 0, 0]
    else if nk > 6 ∧ i % nk = 4 then prev.map subByte else prev
  xorB back t

/-- The key schedule: `n` more words after word `i`. -/
def expandKey (nk : Nat) : Nat → Nat → Nat → List Bytes → List Bytes
  | 0, _, _, ws => ws
  | n + 1, i, rcon, ws =>
    expandKey nk n (i + 1) (if i % nk = 0 then xtime rcon else rcon) (nextKeyWord nk i rcon ws :: ws)

/-- A byte string cut into pieces of `k` bytes. -/
def pieces (k : Nat) : Nat → Bytes → List Bytes
  | 0, _ => []
  | n + 1, b => b.take k :: pieces k n (b.drop k)

/-- The round keys of a key of 16 or 32 bytes, 16 bytes each. -/
def roundKeys (key : Bytes) : List Bytes :=
  let nk := key.length / 4
  let rounds := nk + 7
  let ws := (expandKey nk (4 * rounds - nk) nk 1 (pieces 4 nk key).reverse).reverse
  pieces 16 rounds ws.flatten

/-- ShiftRows on a state kept column by column. -/
def shiftRows (a : Bytes) : Bytes := (List.range 16).map (fun i => at0 a ((i + 4 * (i % 4)) % 16))

/-- MixColumns on one column. -/
def mixColumn (c : Bytes) : Bytes :=
  (List.range 4).map (fun i =>
    gmul (at0 c i) 2 ^^^ gmul (at0 c ((i + 1) % 4)) 3 ^^^ at0 c ((i + 2) % 4) ^^^ at0 c ((i + 3) % 4))

/-- The middle rounds and the last. -/
def aesRounds : List Bytes → Bytes → Bytes
  | [], a => a
  | [k], a => xorB (shiftRows (a.map subByte)) k
  | k :: ks, a => aesRounds ks (xorB ((pieces 4 4 (shiftRows (a.map subByte))).flatMap mixColumn) k)

/-- AES of one block under a key of 16 or 32 bytes. -/
def aes (key block : Bytes) : Bytes :=
  match roundKeys key with
  | [] => block
  | k :: ks => aesRounds ks (xorB block k)

/-- A number's `k` bytes, most significant first. -/
def beNats (k n : Nat) : Bytes := (beBytes k n).map (·.toNat)

/-- A number from bytes, most significant first. -/
def ofBe (b : Bytes) : Nat := b.foldl (fun n x => n * 256 + x) 0

/-- The key stream of counter mode: blocks of a 128-bit counter from `c`, its low `w` bits counting. -/
def ctrStream (key : Bytes) (w : Nat) : Nat → Nat → Bytes
  | 0, _ => []
  | n + 1, c => aes key (beNats 16 c) ++ ctrStream key w n (c / 2 ^ w * 2 ^ w + (c + 1) % 2 ^ w)

/-- Counter mode over data, from the counter block `c`. -/
def ctrMode (key : Bytes) (w c : Nat) (data : Bytes) : Bytes := xorB data (ctrStream key w (data.length / 16 + 1) c)

/-! ### GCM -/

/-- Multiplication in the field of GHASH; blocks as numbers, bit 127 first. -/
def ghMul (x y : Nat) : Nat :=
  ((List.range 128).foldl (fun (p : Nat × Nat) i =>
    (if x.testBit (127 - i) then p.1 ^^^ p.2 else p.1,
     if p.2.testBit 0 then p.2 / 2 ^^^ 0xE1 * 2 ^ 120 else p.2 / 2)) (0, y)).1

/-- GHASH over bytes, the last block filled with zeros. -/
def ghash (h : Nat) : Nat → Nat → Bytes → Nat
  | 0, y, _ => y
  | n + 1, y, b => if b.isEmpty then y else ghash h n (ghMul (y ^^^ ofBe ((b.take 16 ++ List.replicate 16 0).take 16)) h) (b.drop 16)

/-- The GCM tag of additional data and ciphertext under a 12-byte IV. -/
def gcmTag (key iv aad ct : Bytes) : Bytes :=
  let h := ofBe (aes key (List.replicate 16 0))
  let y := ghash h (aad.length / 16 + 1) 0 aad
  let y := ghash h (ct.length / 16 + 1) y ct
  let y := ghMul (y ^^^ (aad.length * 8 * 2 ^ 64 + ct.length * 8)) h
  xorB (beNats 16 y) (aes key (iv ++ [0, 0, 0, 1]))

/-- GCM's counter mode under a 12-byte IV. -/
def gcmStream (key iv data : Bytes) : Bytes := ctrMode key 32 (ofBe (iv ++ [0, 0, 0, 2])) data

/-! ### SHA-1 and HMAC -/

/-- A 32-bit word rotated left. -/
def rotl32 (a n : Nat) : Nat := (a * 2 ^ n + a / 2 ^ (32 - n)) % 2 ^ 32

/-- The 80 words of a block, newest first. -/
def shaSchedule : Nat → List Nat → List Nat
  | 0, ws => ws
  | n + 1, ws => shaSchedule n (rotl32 (at0 ws 2 ^^^ at0 ws 7 ^^^ at0 ws 13 ^^^ at0 ws 15) 1 :: ws)

/-- The function and constant of round t. -/
def shaF (t b c d : Nat) : Nat :=
  if t < 20 then (b &&& c ^^^ (b ^^^ 0xFFFFFFFF) &&& d) + 0x5A827999
  else if t < 40 then (b ^^^ c ^^^ d) + 0x6ED9EBA1
  else if t < 60 then (b &&& c ^^^ b &&& d ^^^ c &&& d) + 0x8F1BBCDC
  else (b ^^^ c ^^^ d) + 0xCA62C1D6

/-- The rounds over the words of a block. -/
def shaRounds : List Nat → Nat → List Nat → List Nat
  | [], _, v => v
  | w :: ws, t, v =>
    let a := at0 v 0
    let b := at0 v 1
    let c := at0 v 2
    let d := at0 v 3
    let e := at0 v 4
    shaRounds ws (t + 1) [(rotl32 a 5 + shaF t b c d + e + w) % 2 ^ 32, a, rotl32 b 30, c, d]

/-- One block of 64 bytes. -/
def shaBlock (v : List Nat) (b : Bytes) : List Nat :=
  let ws := (shaSchedule 64 ((pieces 4 16 b).map ofBe).reverse).reverse
  List.zipWith (fun x y => (x + y) % 2 ^ 32) v (shaRounds ws 0 v)

/-- SHA-1 of a message. -/
def sha1 (m : Bytes) : Bytes :=
  let z := (119 - m.length % 64) % 64
  let p := m ++ [0x80] ++ List.replicate z 0 ++ beNats 8 (8 * m.length)
  ((pieces 64 (p.length / 64) p).foldl shaBlock [0x67452301, 0xEFCDAB89, 0x98BADCFE, 0x10325476, 0xC3D2E1F0]).flatMap (beNats 4)

/-- HMAC-SHA1 under a key of at most 64 bytes. -/
def hmacSha1 (key m : Bytes) : Bytes :=
  let k := (key ++ List.replicate 64 0).take 64
  sha1 (k.map (· ^^^ 0x5C) ++ sha1 (k.map (· ^^^ 0x36) ++ m))

/-- Bytes of memory as numbers. -/
def nats (b : List Byte) : Bytes := b.map (·.toNat)

/-- Numbers as bytes of memory. -/
def ofNats (b : Bytes) : List Byte := b.map (BitVec.ofNat 8)

end Sys2Proof.Machine
end

