-- ==== Sys2Proof/Machine/Frames.lean ====
section
/-! DEFINITION. Frames as the link groups read and build them: Ethernet, tags, IPv4, IPv6 and UDP (03 R64, 04 R105), RTP
headers and their RFC 8285 extensions, and the layer identifiers of the payload formats (03 R82, R83). -/
namespace Sys2Proof.Machine

/-! ### Bytes -/

/-- Byte `i`, 0 beyond the end. -/
def bAt (b : List Byte) (i : Nat) : Nat := ((b[i]?).map (·.toNat)).getD 0

/-- `n` bytes from `i`. -/
def slice (b : List Byte) (i n : Nat) : List Byte := (b.drop i).take n

/-- `n` bytes from `i` in network order, as a number. -/
def netAt (b : List Byte) (i n : Nat) : Nat := beNat (slice b i n)

/-- Bytes put in place of those from `i`. -/
def patch (b : List Byte) (i : Nat) (new : List Byte) : List Byte := b.take i ++ new ++ b.drop (i + new.length)

/-- The ones' complement sum of 16-bit words, the last byte padded. -/
def onesSum : List Byte → Nat → Nat
  | [], n => n
  | [a], n => let m := n + a.toNat * 256; m % 65536 + m / 65536
  | a :: b :: r, n => let m := n + a.toNat * 256 + b.toNat; onesSum r (m % 65536 + m / 65536)

/-- The internet checksum of bytes. -/
def inetSum (b : List Byte) : Nat := 65535 - onesSum b 0

/-! ### Parsing (R64, R65) -/

/-- A frame's headers, as far as stage 2 reads them. -/
structure Parsed where
  ipv6 : Bool
  src : Nat
  dst : Nat
  sport : Nat
  dport : Nat
  dscp : Nat
  pay : Nat                  -- offset of the UDP payload in the frame
  len : Nat                  -- its length
  rtcp : Bool
  deriving DecidableEq, Repr

/-- What stage 2 makes of a frame. -/
inductive Verdict where
  | ipck
  | exc (reason : Nat)
  | fast (p : Parsed)
  deriving DecidableEq, Repr

/-- Is a value a tag protocol identifier (R64)? -/
def isTag (n : Nat) : Bool := n == 0x8100 || n == 0x88A8

/-- The offset of the EtherType that follows the tags of a frame, at most two (R64). -/
def etOffset (f : List Byte) : Nat :=
  if isTag (netAt f 12 2) then (if isTag (netAt f 16 2) then 20 else 16) else 12

/-- The IPv6 extension headers (log 43). -/
def v6ext (n : Nat) : Bool := [0, 43, 44, 50, 51, 60, 135, 139, 140, 253, 254].contains n

/-- Length of an RTP packet's fixed header and CSRC list. -/
def rtpFixed (p : List Byte) : Nat := 12 + 4 * (bAt p 0 % 16)

/-- Does an RTP packet have a header extension? -/
def rtpHasExt (p : List Byte) : Bool := bAt p 0 / 16 % 2 == 1

/-- Length of an RTP packet's whole header. -/
def rtpHeader (p : List Byte) : Nat :=
  rtpFixed p + (if rtpHasExt p then 4 + 4 * netAt p (rtpFixed p + 2) 2 else 0)

/-- Is a UDP payload whole enough as RTP (R64)? -/
def rtpOk (p : List Byte) : Bool :=
  bAt p 0 / 64 == 2 && decide (12 ≤ p.length ∧ rtpFixed p ≤ p.length) &&
    (!rtpHasExt p || (decide (rtpFixed p + 4 ≤ p.length) && decide (rtpHeader p ≤ p.length)))

/-- What the UDP payload is (R64, R65). -/
def classify (p : List Byte) (r : Parsed) : Verdict :=
  let b := bAt p 0
  if p.isEmpty then .exc 7
  else if b ≤ 3 then .exc 5
  else if 20 ≤ b ∧ b ≤ 63 then .exc 6
  else if b < 128 ∨ b > 191 then .exc 7
  else if decide (2 ≤ p.length) && decide (192 ≤ bAt p 1 ∧ bAt p 1 ≤ 223) then
    (if p.length ≥ 8 then .fast { r with rtcp := true } else .exc 8)
  else if rtpOk p then .fast r else .exc 8

/-- The UDP payload of an IP packet whose UDP header is at `u` and whose end is at `e` (log 40). -/
def parseUdp (f : List Byte) (u e : Nat) (r : Parsed) : Verdict :=
  if u + 8 > e then .ipck else
    let l := netAt f (u + 4) 2
    let n := if 8 ≤ l ∧ u + l ≤ e then l - 8 else e - u - 8
    classify (slice f (u + 8) n) { r with sport := netAt f u 2, dport := netAt f (u + 2) 2, pay := u + 8, len := n }

/-- Stage 2 on a frame without its FCS (R64, R65). -/
def parse (f : List Byte) : Verdict :=
  let o := etOffset f
  let et := netAt f o 2
  let ip := o + 2
  let n := f.length - ip
  let r : Parsed := ⟨false, 0, 0, 0, 0, 0, 0, 0, false⟩
  if et = 0x0800 then
    let ihl := bAt f ip % 16
    let total := netAt f (ip + 2) 2
    if bAt f ip / 16 ≠ 4 ∨ ihl < 5 ∨ 4 * ihl > n ∨ total < 4 * ihl ∨ total > n ∨ onesSum (slice f ip (4 * ihl)) 0 ≠ 65535 then .ipck
    else if ihl > 5 then .exc 2
    else if netAt f (ip + 6) 2 % 0x4000 ≠ 0 then .exc 3
    else if bAt f (ip + 9) ≠ 17 then .exc 4
    else parseUdp f (ip + 20) (ip + total)
      { r with src := netAt f (ip + 12) 4, dst := netAt f (ip + 16) 4, dscp := bAt f (ip + 1) / 4 }
  else if et = 0x86DD then
    let plen := netAt f (ip + 4) 2
    let nh := bAt f (ip + 6)
    if bAt f ip / 16 ≠ 6 ∨ 40 > n ∨ 40 + plen > n then .ipck
    else if v6ext nh then .exc 2
    else if nh ≠ 17 then .exc 4
    else parseUdp f (ip + 40) (ip + 40 + plen)
      { r with ipv6 := true, src := netAt f (ip + 8) 16, dst := netAt f (ip + 24) 16, dscp := netAt f ip 2 / 64 % 64 }
  else .exc 1

/-! ### Building (04 R105, 12 R306) -/

/-- Addressing of a frame that is built. -/
structure Address where
  dstMac : Nat
  srcMac : Nat
  vid : Nat
  pcp : Nat
  vlan : Bool
  ipv6 : Bool
  src : Nat
  dst : Nat
  sport : Nat
  dport : Nat
  dscp : Nat
  ttl : Nat
  deriving DecidableEq, Repr

/-- Ethernet addresses, the tag if there is one, and the EtherType. -/
def ethHead (dst src : Nat) (tag : Option Nat) (et : Nat) : List Byte :=
  beBytes 6 dst ++ beBytes 6 src ++
    (match tag with
     | some t => beBytes 2 0x8100 ++ beBytes 2 t
     | none => []) ++ beBytes 2 et

/-- A UDP datagram; the checksum is zero over IPv4 and computed over IPv6. -/
def udpOf (a : Address) (pay : List Byte) : List Byte :=
  let n := 8 + pay.length
  let h (c : Nat) := beBytes 2 a.sport ++ beBytes 2 a.dport ++ beBytes 2 n ++ beBytes 2 c
  if a.ipv6 then
    let c := inetSum (beBytes 16 a.src ++ beBytes 16 a.dst ++ beBytes 4 n ++ beBytes 4 17 ++ h 0 ++ pay)
    h (if c = 0 then 65535 else c) ++ pay
  else h 0 ++ pay

/-- An IP packet: IPv4 with identification 0 and DF set, or IPv6. -/
def ipOf (a : Address) (pay : List Byte) : List Byte :=
  let u := udpOf a pay
  if a.ipv6 then
    beBytes 4 (6 * 2 ^ 28 + a.dscp * 2 ^ 22) ++ beBytes 2 u.length ++ beBytes 1 17 ++ beBytes 1 a.ttl ++
      beBytes 16 a.src ++ beBytes 16 a.dst ++ u
  else
    let h (c : Nat) := beBytes 1 0x45 ++ beBytes 1 (a.dscp * 4) ++ beBytes 2 (20 + u.length) ++ beBytes 2 0 ++ beBytes 2 0x4000 ++
      beBytes 1 a.ttl ++ beBytes 1 17 ++ beBytes 2 c ++ beBytes 4 a.src ++ beBytes 4 a.dst
    h (inetSum (h 0)) ++ u

/-- A frame, padded to 60 bytes, without its FCS (log 44). -/
def padFrame (f : List Byte) : List Byte := f ++ List.replicate (60 - f.length) 0

/-- A frame that carries a UDP payload, without its FCS. -/
def frameOf (a : Address) (pay : List Byte) : List Byte :=
  padFrame (ethHead a.dstMac a.srcMac (if a.vlan then some (a.pcp * 8192 + a.vid) else none) (if a.ipv6 then 0x86DD else 0x0800) ++
    ipOf a pay)

/-- The frame check sequence of IEEE 802.3, as its four bytes on the line. -/
def fcsOf (f : List Byte) : List Byte := leBytes 4 (crcOver 0xEDB88320 0xFFFFFFFF f ^^^ 0xFFFFFFFF)

/-! ### Header extensions (R81, 04 R105) -/

/-- An element of a header extension: ID and data. -/
abbrev ExtElem := Nat × List Byte

/-- The form of a header extension's profile: one-byte, two-byte, or neither. -/
def extForm (profile : Nat) : Option Bool :=
  if profile = 0xBEDE then some false else if profile / 16 = 0x100 then some true else none

/-- The elements of an extension block; `two`: the two-byte form. -/
def extElems (two : Bool) : Nat → List Byte → List ExtElem
  | 0, _ => []
  | _ + 1, [] => []
  | n + 1, h :: r =>
    let id := if two then h.toNat else h.toNat / 16
    if h = 0 ∨ (two = true ∧ id = 0) then extElems two n r
    else if two then
      match r with
      | [] => []
      | l :: r2 => if l.toNat > r2.length then [] else (id, r2.take l.toNat) :: extElems two n (r2.drop l.toNat)
    else if id = 15 then []
    else
      let l := h.toNat % 16 + 1
      if l > r.length then [] else (id, r.take l) :: extElems two n (r.drop l)

/-- The extension block of an RTP packet, with its form. -/
def extBlock (p : List Byte) : Option (Bool × List Byte) :=
  if rtpHasExt p then
    (extForm (netAt p (rtpFixed p) 2)).map (fun two => (two, slice p (rtpFixed p + 4) (4 * netAt p (rtpFixed p + 2) 2)))
  else none

/-- The data of the element with an ID; ID 0 means absent (R81). -/
def findExt (p : List Byte) (id : Nat) : Option (List Byte) :=
  if id = 0 then none else
    match extBlock p with
    | none => none
    | some (two, b) => ((extElems two b.length b).find? (fun e => e.1 == id)).map (·.2)

/-- An extension block with each element's ID and data mapped; a new ID the form cannot carry becomes padding. -/
def extMap (two : Bool) (g : ExtElem → ExtElem) : Nat → List Byte → List Byte
  | 0, b => b
  | _ + 1, [] => []
  | n + 1, h :: r =>
    let id := if two then h.toNat else h.toNat / 16
    if h = 0 ∨ (two = true ∧ id = 0) then h :: extMap two g n r
    else if two then
      match r with
      | [] => [h]
      | l :: r2 =>
        if l.toNat > r2.length then h :: r else
          let (j, d) := g (id, r2.take l.toNat)
          (if j % 256 = 0 then List.replicate (2 + l.toNat) 0 else BitVec.ofNat 8 j :: l :: d) ++ extMap two g n (r2.drop l.toNat)
    else if id = 15 then h :: r
    else
      let l := h.toNat % 16 + 1
      if l > r.length then h :: r else
        let (j, d) := g (id, r.take l)
        (if j = 0 ∨ j ≥ 15 then List.replicate (1 + l) 0 else BitVec.ofNat 8 (j * 16 + h.toNat % 16) :: d) ++ extMap two g n (r.drop l)

/-- An RTP packet with its extension block's elements mapped. -/
def mapExt (p : List Byte) (g : ExtElem → ExtElem) : List Byte :=
  match extBlock p with
  | none => p
  | some (two, b) => patch p (rtpFixed p + 4) (extMap two g b.length b)

/-! ### Layer identifiers (R82, R83) -/

/-- `n` bits from bit `i` of bytes, first bit most significant. -/
def bitsAt (b : List Byte) (i n : Nat) : Nat :=
  (List.range n).foldl (fun v k => 2 * v + bAt b ((i + k) / 8) / 2 ^ (7 - (i + k) % 8) % 2) 0

/-- The templates' layers of a dependency structure from bit `i`, and the bit after them. -/
def ddLayers (b : List Byte) : Nat → Nat → Nat → Nat → List (Nat × Nat) × Nat
  | 0, i, _, _ => ([], i)
  | n + 1, i, s, t =>
    let here := (s % 4, t % 8)
    match bitsAt b i 2 with
    | 0 => let (l, j) := ddLayers b n (i + 2) s t; (here :: l, j)
    | 1 => let (l, j) := ddLayers b n (i + 2) s (t + 1); (here :: l, j)
    | 2 => let (l, j) := ddLayers b n (i + 2) (s + 1) 0; (here :: l, j)
    | _ => ([here], i + 2)

/-- The switch mask of a template whose indications begin at bit `i`: one bit per decode target that is Switch. -/
def ddSwitch (b : List Byte) (i dts : Nat) : Nat :=
  (List.range dts).foldl (fun m k => if bitsAt b (i + 2 * k) 2 = 2 then m + 2 ^ k else m) 0

/-- A dependency descriptor's template structure (R82): offset, decode targets, and the templates' 64-bit words. -/
def ddStructure (b : List Byte) : Option (Nat × Nat × List Nat) :=
  if b.length > 3 ∧ bitsAt b 24 1 = 1 then
    let dts := bitsAt b 35 5 + 1
    let (layers, i) := ddLayers b 64 40 0 0
    some (bitsAt b 29 6, dts,
      layers.zipIdx.map (fun (e : (Nat × Nat) × Nat) => ddSwitch b (i + 2 * dts * e.2) dts * 32 + e.1.1 * 8 + e.1.2))
  else none

/-- What a NAL header tells (R83). -/
structure NalInfo where
  valid : Bool
  s : Nat
  t : Option Nat             -- none: of the latest prefix at the timestamp, or 0
  key : Bool
  sw : Bool
  prefixT : Option Nat
  deriving DecidableEq, Repr

/-- An H.264 unit of type `ty` whose bytes after its one-byte header begin at `i`; `ext`: those bytes are its first. -/
def h264Unit (b : List Byte) (ty i : Nat) (ext : Bool) : NalInfo :=
  if ty = 14 ∨ ty = 20 then
    let svc := ext && decide (i + 3 ≤ b.length) && bAt b i / 128 == 1
    if svc then
      let t := bAt b (i + 2) / 32
      let idr := bAt b i / 64 % 2 == 1
      ⟨true, bAt b (i + 1) / 16 % 8, some t, idr, idr, if ty = 14 then some t else none⟩
    else ⟨false, 0, some 0, false, false, none⟩
  else ⟨true, 0, none, ty == 5, ty == 5, none⟩

/-- The H.264 NAL header examined (R83; RFC 6184). -/
def h264Info (b : List Byte) : NalInfo :=
  let ty := bAt b 0 % 32
  let inner (i : Nat) := if i < b.length then h264Unit b (bAt b i % 32) (i + 1) true else ⟨false, 0, some 0, false, false, none⟩
  if b.isEmpty then ⟨false, 0, some 0, false, false, none⟩
  else match ty with
    | 24 => inner 3
    | 25 => inner 5
    | 26 => inner 8
    | 27 => inner 9
    | 28 => if b.length < 2 then ⟨false, 0, some 0, false, false, none⟩ else h264Unit b (bAt b 1 % 32) 2 (bAt b 1 / 128 == 1)
    | 29 => if b.length < 2 then ⟨false, 0, some 0, false, false, none⟩ else h264Unit b (bAt b 1 % 32) 4 (bAt b 1 / 128 == 1)
    | _ => h264Unit b ty 1 true

/-- An H.265 header: its type is `ty`, its layer and temporal fields are in the two bytes at `i`. -/
def h265Head (b : List Byte) (ty i : Nat) : NalInfo :=
  let h := netAt b i 2
  let layer := h / 8 % 64
  let tid := h % 8
  let key := decide (16 ≤ ty ∧ ty ≤ 21)
  ⟨decide (layer ≤ 7) && tid != 0, layer, some (tid - 1), key, key || decide (2 ≤ ty ∧ ty ≤ 5), none⟩

/-- The H.265 NAL header examined (R83; RFC 7798 without DONL). -/
def h265Info (b : List Byte) : NalInfo :=
  let ty := bAt b 0 / 2 % 64
  if b.length < 2 then ⟨false, 0, some 0, false, false, none⟩
  else if ty = 48 then
    (if b.length < 6 then ⟨false, 0, some 0, false, false, none⟩ else h265Head b (bAt b 4 / 2 % 64) 4)
  else if ty = 49 then
    (if b.length < 3 then ⟨false, 0, some 0, false, false, none⟩ else h265Head b (bAt b 2 % 64) 0)
  else h265Head b ty 0

end Sys2Proof.Machine
end

