-- ==== Sys2Proof/Machine/TableOps.lean ====
section
/-! DEFINITION. The leg and subscription tables as programs write them (04 R91-R95): where records lie, and what the link groups
no longer hold of a record that a program has written anew. -/
namespace Sys2Proof.Machine

/-- The address of a leg's record (04 R91, R92). -/
def State.legAddr (s : State) (l : Nat) : Nat := s.get F.LNK_LEG_BASE_base * 2 ^ 20 + 128 * l

/-- The address of a subscription record (04 R91, R94). -/
def State.subAddr (s : State) (i : Nat) : Nat := s.get F.LNK_SUB_BASE_base * 2 ^ 20 + 64 * i

/-- Do `n` bytes from `a` meet those from `b + lo` up to `b + hi`? -/
def meets (a n b lo hi : Nat) : Bool := decide (a < b + hi ∧ b + lo < a + n)

/-- A program has written `n` bytes from `a`: of a leg whose valid bit is 0, words 3 and 4 are read anew, and words 5 to 7 where they
were written (04 R93); words 2 and 3 of a subscription are read anew where they were written (04 R95). -/
def State.noticeWrite (s : State) (a n : Nat) : State :=
  let anew (l lo hi : Nat) : Bool := meets a n (s.legAddr l) lo hi && !bit (s.word (s.legAddr l + 32)) 30
  let f := s.fwd
  { s with fwd := { f with
    legCfg := f.legCfg.filter (fun e => !anew e.1 0 128), legCache := f.legCache.filter (fun e => !anew e.1 80 128),
    legB := f.legB.filter (fun e => !anew e.1 80 128),
    subCache := f.subCache.filter (fun e => !meets a n (s.subAddr e.1) 32 64) } }

end Sys2Proof.Machine
end

