-- ==== Sys2Proof/Machine/MeridianOps.lean ====
section
/-! DEFINITION. The meridian's operations (02): its rate and its advance, entering holdover, the set, rasters, the
transit table and its firings, PTP items; and the write and read side effects of the MTB registers. -/
namespace Sys2Proof.Machine

/-! ### Rate and advance (02 R42, R43) -/

/-- The states of the meridian (02 R42). -/
abbrev stFree : Nat := 0
abbrev stLocked : Nat := 1
abbrev stHoldover : Nat := 2

/-- The slew limit in 2^-16 ppb. -/
def State.slewLimit (s : State) : Int := 65536 * (s.get F.MTB_SLEW_LIMIT_slew_ppb : Int)

/-- The frequency term of R43 before its clamp, 2^-16 ppb. -/
def State.rawRate (s : State) : Int :=
  if s.get F.MTB_STATUS_state = stHoldover then signed 40 (s.get F.MTB_RATE_LEARNED_rate_learned)
  else signed 40 (s.get F.MTB_VERNIER_freq_adj)

/-- The clamped frequency term f of R43. -/
def State.rateF (s : State) : Int := clampInt s.rawRate (-s.slewLimit) s.slewLimit

/-- The absorption rate before it yields to the limit: sign(remain) * absorb_ppb, zero in HOLDOVER. -/
def State.rawPhase (s : State) : Int :=
  if s.get F.MTB_STATUS_state = stHoldover then 0
  else 65536 * s.mtb.remain.sign * (s.get F.MTB_PHASE_ADJ_absorb_ppb : Int)

/-- The phase term p of R43. -/
def State.rateP (s : State) : Int := clampInt (s.rateF + s.rawPhase) (-s.slewLimit) s.slewLimit - s.rateF

/-- Is the applied rate being limited (R43)? -/
def State.slewClamped (s : State) : Bool := s.rateF != s.rawRate || s.rateF + s.rawPhase != s.rateF + s.rateP

/-- One cycle's advance by the frequency term, in time units: d * (1 + f / 10^9). -/
def State.cycleStep (s : State) : Nat := (40960 * (65536 * 10 ^ 9 + s.rateF)).toNat

/-- One cycle's gain by the phase term, in time units: d * p / 10^9. -/
def State.cycleGain (s : State) : Int := 40960 * s.rateP

/-- The gain of `n` cycles: n steps of the phase term, never past zero. -/
def gainOf (n : Nat) (g remain : Int) : Int := if n * g.natAbs > remain.natAbs then remain else n * g

/-- `n` meridian cycles (R43) with no register write between them. -/
def State.advance (n : Nat) (s : State) : State :=
  let gain := gainOf n s.cycleGain s.mtb.remain
  { s with mtb := { s.mtb with
      time := (s.mtb.time + n * s.cycleStep + gain).toNat
      up := (s.mtb.up + n * s.cycleStep + gain).toNat
      remain := s.mtb.remain - gain
      learnSkip := s.mtb.learnSkip && n == 0 } }

/-- The MTB_PHASE_ADJ register as it reads: remain in whole 2^-16 ns, toward zero (log 23). -/
def State.phaseView (s : State) : Reg64 :=
  putFld (s.reg .MTB_PHASE_ADJ) 47 0 (unsigned 48 (s.mtb.remain.tdiv s.mtb.k))

/-- The MTB_STATUS register as it reads. -/
def State.mtbStatusView (s : State) : Reg64 :=
  putFld (putFld (s.reg .MTB_STATUS) 15 15 (s.get F.MTB_CTRL_run)) 10 10 (bnat s.slewClamped)

/-! ### States and the oscillator (02 R41, R42, R46) -/

/-- LOCKED is entered, and the watchdog restarts (log 24). -/
def State.enterLocked (s : State) : State :=
  let s := s.put F.MTB_STATUS_state stLocked
  { s with mtb := { s.mtb with vernierAt := s.upNs } }

/-- HOLDOVER is entered: hold_evt and record 0x0103 (R46). -/
def State.enterHoldover (s : State) : State :=
  let s := (s.put F.MTB_STATUS_state stHoldover).put F.MTB_STATUS_hold_evt 1
  s.logEv 0x0103 1 0 5 (snapOf (s.reg .MTB_VERNIER) ++ snapOf s.phaseView ++ snapOf (s.reg .MTB_RATE_LEARNED))

/-- The fallback to OSC_IN (R41). -/
def State.oscFallsBack (s : State) : State :=
  let s := (s.put F.MTB_CTRL_osc_sel 0).put F.MTB_STATUS_osc_lost 1
  s.logEv 0x0101 1 0 6 (snapOf s.mtbStatusView)

/-- A write of osc_sel: taken only in FREE; selecting an absent TIME_OSC_IN counts as a stop (R41). -/
def State.writeOsc (s : State) (sel : Nat) : State :=
  if s.get F.MTB_STATUS_state ≠ stFree then s else
    let s := s.put F.MTB_CTRL_osc_sel sel
    if sel = 1 && !s.mtb.oscPresent then s.oscFallsBack else s

/-! ### Rasters (02 R52, R53) -/

/-- num, den * 10^9, and offset * num mod (den * 10^9) of raster k; none where it is disabled or has no rate. -/
def State.raster (s : State) (k : Nat) : Option (Nat × Nat × Nat) :=
  let num := s.get F.MTB_RASTER_RATE_num 0 k
  let den := s.get F.MTB_RASTER_RATE_den 0 k * 10 ^ 9
  if s.get F.MTB_RASTER_RATE_en 0 k = 0 ∨ num = 0 ∨ den = 0 then none
  else some (num, den, s.get F.MTB_RASTER_OFFSET_offset_ns 0 k * num % den)

/-- The frame and line of raster k at whole nanosecond `t` (R52). -/
def State.rasterPhase (s : State) (k t : Nat) : Int × Nat :=
  match s.raster k with
  | none => (0, 0)
  | some (num, den, off) =>
    let u : Int := (t * num : Nat) - (off : Nat)
    (u.fdiv den, (u.fmod den).toNat * s.get F.MTB_RASTER_GEOM_lines 0 k / den)

/-- The first whole nanosecond at or after the start of frame `f` of raster k, plus line / lines of a frame and
`delay` ns (R55). -/
def State.rasterInstant (s : State) (k line delay f : Nat) : Option Nat :=
  match s.raster k with
  | none => none
  | some (num, den, off) =>
    let lines := s.get F.MTB_RASTER_GEOM_lines 0 k
    if lines = 0 then none
    else some (ceilDiv ((f * den + off + delay * num) * lines + line * den) (num * lines))

/-- The first frame of raster k whose instant (line, delay) is at or after whole nanosecond `t`. -/
def State.rasterFrameFrom (s : State) (k line delay t : Nat) : Option Nat :=
  match s.raster k with
  | none => none
  | some (num, den, off) =>
    let lines := s.get F.MTB_RASTER_GEOM_lines 0 k
    if lines = 0 then none else
      let b : Int := ((t : Int) - 1) * (num * lines : Nat) - ((off + delay * num) * lines + line * den : Nat)
      some (b.fdiv (den * lines : Nat) + 1).toNat

/-- The first frame from `f` on that is `phase` mod `n`; any frame for n = 0. -/
def frameFrom (f n phase : Nat) : Option Nat :=
  if n = 0 then some f
  else if phase ≥ n then none
  else some (f + (phase + n - f % n) % n)

/-- The frame rate of a raster lies within 23.976 to 120 Hz and its lines within 1 to 8,192 (R53). -/
def State.rasterLegal (s : State) (k num den : Nat) : Bool :=
  decide (den ≠ 0 ∧ 23976 * den ≤ 1000 * num ∧ num ≤ 120 * den ∧
    1 ≤ s.get F.MTB_RASTER_GEOM_lines 0 k ∧ s.get F.MTB_RASTER_GEOM_lines 0 k ≤ 8192)

/-! ### The transit table (02 R55-R58) -/

/-- The bookkeeping of an entry that nothing has armed. -/
def TrnAux.idle : TrnAux := ⟨none, false, none, 0, false⟩

/-- An entry's bookkeeping. -/
def State.aux (s : State) (i : Nat) : TrnAux := s.mtb.trn.getD i TrnAux.idle

/-- An entry's bookkeeping set. -/
def State.setAux (s : State) (i : Nat) (a : TrnAux) : State := { s with mtb := { s.mtb with trn := s.mtb.trn.put i a } }

/-- Every raster entry may fire only from now on: at RUN, and when its raster is enabled (R53). -/
def State.rearm (s : State) (p : Nat → Bool) : State :=
  { s with mtb := { s.mtb with
      trn := s.mtb.trn.map (fun (i, a) => (i, if p i then { a with armed := s.nanos, frame := none } else a)) } }

/-- Is the entry's at past (R55)? -/
def State.atPast (s : State) (i : Nat) : Bool :=
  decide ((s.get F.MTB_TRN_WHEN_at 0 i + 2 ^ 64 - s.mtime) % 2 ^ 64 ≥ 2 ^ 63)

/-- A set marks the enabled m-time entries whose next time it has passed (R45). -/
def State.markPast (s : State) : State :=
  { s with mtb := { s.mtb with
      trn := s.mtb.trn.map (fun (i, a) =>
        (i, if s.flag F.MTB_TRN_CTRL_en 0 i && !s.flag F.MTB_TRN_CTRL_kind 0 i && s.atPast i
            then { a with past := true } else a)) } }

/-- The trigger of an entry's next firing as whole nanoseconds (m-time for an m-time entry), with the frame of a raster
entry; none where nothing is to come. -/
def State.nextTrigger (s : State) (i : Nat) : Option (Nat × Option Nat) :=
  if s.get F.MTB_TRN_CTRL_en 0 i = 0 then none
  else if s.get F.MTB_TRN_CTRL_kind 0 i = 0 then some (s.get F.MTB_TRN_WHEN_at 0 i, none)
  else
    let a := s.aux i
    let k := s.get F.MTB_TRN_CTRL_raster 0 i
    let w := s.reg .MTB_TRN_WHEN 0 i
    if s.get F.MTB_CTRL_run = 0 then none else
      match s.rasterFrameFrom k (fld w 63 48) (fld w 31 0) a.armed with
      | none => none
      | some f0 =>
        let f0 := match a.frame with
          | none => f0
          | some f => max f0 (f + 1)
        match frameFrom f0 (s.get F.MTB_TRN_CTRL_every_n 0 i) (s.get F.MTB_TRN_CTRL_phase 0 i) with
        | none => none
        | some f => (s.rasterInstant k (fld w 63 48) (fld w 31 0) f).map (fun t => (t, some f))

/-- Is the trigger of an entry reached: m-time for an m-time entry, whole nanoseconds for a raster entry? -/
def State.due (s : State) (t : Nat) (frame : Option Nat) : Bool :=
  if frame.isSome then decide (t ≤ s.nanos) else s.reached t

/-- Actions whose firing needs a message (R56). -/
def messaged (action : Nat) : Bool := action == 1 || action == 2 || action == 4 || action == 5

/-- What a firing does to its entry: a one-shot clears en, a periodic entry advances at, a raster entry keeps its
frame (R55). -/
def State.entryFired (s : State) (i : Nat) (frame : Option Nat) : State :=
  let a := s.aux i
  match frame with
  | some f =>
    let s := s.setAux i { a with frame := some f }
    if s.get F.MTB_TRN_CTRL_every_n 0 i = 0 then s.put F.MTB_TRN_CTRL_en 0 0 i else s
  | none =>
    let p := s.get F.MTB_TRN_CTRL_period_us 0 i * 1000
    let at0 := s.get F.MTB_TRN_WHEN_at 0 i
    let s := s.setAux i { a with past := false }
    if p = 0 then s.put F.MTB_TRN_CTRL_en 0 0 i
    else if a.past then
      let behind := (s.mtime + 2 ^ 64 - at0) % 2 ^ 64
      s.put F.MTB_TRN_WHEN_at (at0 + (behind / p + 1) * p) 0 i
    else s.put F.MTB_TRN_WHEN_at (at0 + p) 0 i

/-- A firing counts in fires, and in late when it is late (R55, R57). -/
def State.countFiring (s : State) (i : Nat) (late : Bool) : State :=
  let s := s.bump F.MTB_TRN_STAT_fires 1 0 i
  if late then (s.count F.MTB_TRN_STAT_late 1 0 i).put F.MTB_STATUS_late_evt 1 else s

/-- FRAME_OUT rises for at least 10 ns; a pin already high stays high until the later end (R59); low while the interfaces are as in
reset (18 R412). -/
def State.pulse (s : State) (operand : Nat) : State :=
  if s.dark then s else
  let pin := operand / 2 ^ 32 % 4
  let stop := s.upNs + max 10 (operand % 2 ^ 24)
  { s with mtb := { s.mtb with frameOut := s.mtb.frameOut.put pin (max stop (s.mtb.frameOut.getD pin 0)) } }

/-- Message credit: one message per 10 ns on average, a burst of 16, in tenths of a message (R57). -/
def State.credit (s : State) : Nat := min 160 (s.mtb.tokens + (s.upNs - s.mtb.tokensAt))

/-- The lead of an entry's message: at most lead_ns ahead of the trigger, and marked late when issued later than 200 ns
before it (R56, R57). -/
def State.ahead (s : State) (t : Nat) (raster : Bool) : Int :=
  if raster then (t : Int) - s.nanos else signed 64 (t + 2 ^ 64 - s.mtime)

/-- Does an entry below `i` that shares the trigger `t` still wait for its message: it goes first (R56)? -/
def State.lowerWaits (s : State) (i t : Nat) : Bool :=
  (List.range i).any (fun j => messaged (s.get F.MTB_TRN_ACT_action 0 j) && (s.aux j).sent.isNone &&
    ((s.nextTrigger j).any (fun e => e.1 % 2 ^ 64 == t)))

/-- The message of entry `i`'s next firing leaves (R56, R57). -/
def State.issueFiring (s : State) (i : Nat) : State :=
  let a := s.aux i
  let action := s.get F.MTB_TRN_ACT_action 0 i
  if a.sent.isSome || !messaged action then s else
    match s.nextTrigger i with
    | none => s
    | some (t, frame) =>
      let d := s.ahead t frame.isSome
      if d > s.get F.MTB_TRANSIT_LEAD_lead_ns ∨ s.credit < 10 ∨ s.lowerWaits i (t % 2 ^ 64) = true then s else
        let f : Firing := ⟨i, action, s.get F.MTB_TRN_ACT_operand 0 i, t % 2 ^ 64, a.past || decide (d < 200)⟩
        let s := s.setAux i { a with sent := some f, written := false, frame := frame.or a.frame }
        let s := { s with mtb := { s.mtb with tokens := s.credit - 10, tokensAt := s.upNs, firings := s.mtb.firings ++ [f] } }
        s.put F.MTB_TRN_STAT_sent 1 0 i

/-- Entry `i` fires (R55, R56, R58). -/
def State.fire (s : State) (i : Nat) : State :=
  let a := s.aux i
  match a.sent with
  | some f =>
    if !(f.late || s.reached f.trigger) then s else
      let s := (s.countFiring i (f.late || (a.past && !a.written))).put F.MTB_TRN_STAT_sent 0 0 i
      let s := s.setAux i { a with sent := none, written := false }
      if a.written then s
      else if s.get F.MTB_TRN_CTRL_kind 0 i = 1 then s.entryFired i (some (a.frame.getD 0)) else s.entryFired i none
  | none =>
    let action := s.get F.MTB_TRN_ACT_action 0 i
    if messaged action then s else
      match s.nextTrigger i with
      | none => s
      | some (t, frame) =>
        if !(a.past || s.due t frame) then s else
          let operand := s.get F.MTB_TRN_ACT_operand 0 i
          let s := (s.countFiring i a.past).entryFired i frame
          if action = 3 then s.pulse operand else s

/-- Is a firing applied before `f`: it shares the trigger time and has the lower entry index (R56)? -/
def Firing.before (g f : Firing) : Bool := g.trigger == f.trigger && decide (g.entry < f.entry)

/-- The oldest message of entry `i` with this action whose time has come (R56, R57), and the messages left. -/
def State.takeFiring (s : State) (i action : Nat) : Option (Firing × State) :=
  let p : Firing → Bool := fun f => f.entry == i && f.action == action && (f.late || s.reached f.trigger) &&
    !s.mtb.firings.any (·.before f)
  match s.mtb.firings.find? p with
  | none => none
  | some f => some (f, { s with mtb := { s.mtb with firings := dropFirst p s.mtb.firings } })

/-! ### Writes of MTB registers (02 R44, R45, R53, R55, R58, R61) -/

/-- Has the holdover watchdog run out (R46)? -/
def State.watchdogDue (s : State) : Bool :=
  s.flag F.MTB_HOLD_auto && s.get F.MTB_STATUS_state == stLocked &&
    decide (s.upNs ≥ s.mtb.vernierAt + s.get F.MTB_HOLD_timeout_ms * 10 ^ 6)

/-- The watchdog restarts. -/
def State.feedWatchdog (s : State) : State := { s with mtb := { s.mtb with vernierAt := s.upNs } }

/-- The write of MTB_CTRL (R41, R42, R46, R53): its fields are judged against the state before it (log 26); a relock that meets
the watchdog's expiry restarts it (R44). -/
def State.wrMtbCtrl (s : State) (v : Reg64) : State :=
  let st := s.get F.MTB_STATUS_state
  let ran := s.flag F.MTB_CTRL_run
  let s1 := ((s.put F.MTB_CTRL_domain (fld v 23 16)).put F.MTB_CTRL_learn_en (fld v 3 3)).writeOsc (fld v 8 8)
  let s1 := if bit v 7 && !ran then
      ((s1.put F.MTB_CTRL_run 1).put F.MTB_STATUS_run 1).rearm (fun i => s.flag F.MTB_TRN_CTRL_kind 0 i) else s1
  let s1 := if bit v 0 && st == stFree then s1.enterLocked else s1
  let s1 := if bit v 1 && st == stLocked then s1.enterHoldover else s1
  if bit v 2 && st == stHoldover then s1.enterLocked else if bit v 2 && s.watchdogDue && !bit v 1 then s1.feedWatchdog else s1

/-- The write of MTB_SET_NS performs the set or is refused (R45). -/
def State.wrSetNs (s : State) (v : Reg64) : State :=
  let ns := fld v 63 32
  if s.get F.MTB_STATUS_state = stFree ∧ s.get F.MTB_STATUS_step_used = 0 ∧ s.get F.MTB_CTRL_run = 0 ∧ ns < 10 ^ 9 then
    let sec := s.get F.MTB_SET_SEC_sec
    let t := (sec * 10 ^ 9 + ns) * s.mtb.ns + fld v 31 16 * s.mtb.k
    let s := { s with mtb := { s.mtb with time := t, remain := 0, tickCut := true, ppsSec := sec } }
    ((s.put F.MTB_STATUS_step_used 1).put F.MTB_STATUS_step_result 1).enterLocked.markPast
  else
    let s := s.put F.MTB_STATUS_step_result 2
    s.logEv 0x0102 1 0 4 (snapOf s.mtbStatusView ++ snapOf (s.reg .MTB_SET_SEC))

/-- The write of MTB_PHASE_ADJ (R43, R44). -/
def State.wrPhaseAdj (s : State) (v : Reg64) : State :=
  let s := s.setReg .MTB_PHASE_ADJ v
  { s with mtb := { s.mtb with remain := signed 48 (fld v 47 0) * s.mtb.k } }

/-- The write of MTB_VERNIER refreshes the watchdog (R44, R61). -/
def State.wrVernier (s : State) (v : Reg64) : State :=
  (s.put F.MTB_VERNIER_freq_adj (fld v 39 0)).feedWatchdog

/-- The write of MTB_RATE_LEARNED skips that second's update when they meet (R44). -/
def State.wrRateLearned (s : State) (v : Reg64) : State :=
  let s := s.put F.MTB_RATE_LEARNED_rate_learned (fld v 39 0)
  { s with mtb := { s.mtb with learnSkip := true } }

/-- The write of MTB_PPS: an output that is enabled rises from the next whole second on (R60). -/
def State.wrPps (s : State) (v : Reg64) : State :=
  let was := s.flag F.MTB_PPS_out_en
  let s := s.setReg .MTB_PPS (codedWrite RegName.MTB_PPS.info (s.reg .MTB_PPS) v)
  if bit v 63 && !was then { s with mtb := { s.mtb with ppsSec := s.nanos / 10 ^ 9 } } else s

/-- The write of MTB_RASTER_RATE (R53). DESIGN CHOICE (log 25): a refused write stores its num and den. -/
def State.wrRasterRate (s : State) (k : Nat) (v : Reg64) : State :=
  let old := s.reg .MTB_RASTER_RATE 0 k
  let new := codedWrite RegName.MTB_RASTER_RATE.info old v
  if s.flag F.MTB_RASTER_RATE_en 0 k then
    -- an enabled raster drops a write to its rate; the write may disable it
    if bit v 63 then s else s.put F.MTB_RASTER_RATE_en 0 0 k
  else if bit v 63 && !s.rasterLegal k (fld v 55 32) (fld v 23 0) then
    (s.setReg .MTB_RASTER_RATE (putFld new 63 63 0) 0 k).put F.MTB_STATUS_raster_err 1
  else if bit v 63 then
    (s.setReg .MTB_RASTER_RATE new 0 k).rearm (fun i => s.flag F.MTB_TRN_CTRL_kind 0 i && s.get F.MTB_TRN_CTRL_raster 0 i == k)
  else s.setReg .MTB_RASTER_RATE new 0 k

/-- A write to the geometry or the offset of an enabled raster is dropped (R53). -/
def State.wrRasterOther (s : State) (n : RegName) (k : Nat) (v : Reg64) : State :=
  if s.flag F.MTB_RASTER_RATE_en 0 k then s else s.setReg n (codedWrite n.info (s.reg n 0 k) v) 0 k

/-- A word of MTB_TRN_WHEN with its reserved bits [47:32] of a raster entry taken from `old` (R61). -/
def whenBits (raster : Bool) (old v : Reg64) : Reg64 := if raster then putFld v 47 32 (fld old 47 32) else v

/-- MTB_TRN_WHEN as it reads (R61). -/
def State.whenView (s : State) (i : Nat) : Reg64 := whenBits (s.flag F.MTB_TRN_CTRL_kind 0 i) 0 (s.reg .MTB_TRN_WHEN 0 i)

/-- A write to a transit entry (R55, R58): a past m-time entry is marked, a raster entry is armed from now on; a frame already
served counts on only while the entry stays on its raster. -/
def State.wrTransit (s : State) (n : RegName) (i : Nat) (v : Reg64) : State :=
  let was := s.flag F.MTB_TRN_CTRL_en 0 i
  let wasRaster := s.flag F.MTB_TRN_CTRL_kind 0 i
  let k := s.get F.MTB_TRN_CTRL_raster 0 i
  let old := s.reg n 0 i
  let v := if n = .MTB_TRN_WHEN then whenBits wasRaster old v else v
  let s := s.setReg n (codedWrite n.info old v) 0 i
  if n = .MTB_TRN_ACT then s.setAux i (s.aux i) else
    let a := { s.aux i with written := true }
    if s.flag F.MTB_TRN_CTRL_kind 0 i then
      s.setAux i { a with past := false, armed := s.nanos, frame := if wasRaster && s.get F.MTB_TRN_CTRL_raster 0 i == k then a.frame else none }
    else
      let en := s.flag F.MTB_TRN_CTRL_en 0 i
      let judged := n = .MTB_TRN_WHEN ∨ was = false ∨ wasRaster = true
      s.setAux i { a with past := en && (if judged then s.atPast i else a.past), frame := none }

/-- The seconds and the latched rest of the present time (R61). -/
def State.timeSec (s : State) : Reg64 := BitVec.ofNat 64 (s.nanos / 10 ^ 9 % 2 ^ 48)

/-- The nanoseconds and the fraction as MTB_TIME_NS lays them out. -/
def State.timeNs (s : State) : Reg64 := BitVec.ofNat 64 (s.nanos % 10 ^ 9 * 2 ^ 32 + s.frac * 2 ^ 16)

/-- A read of MTB_TIME_SEC latches the same instant for the master that reads (R61). -/
def State.latchTime (s : State) (master : Nat) : State :=
  { s with mtb := { s.mtb with latches := s.mtb.latches.put master s.timeNs } }

/-- The tick length, ns, of a length code (R54, R61). -/
def tickLen (code : Nat) : Nat := 125000 * 2 ^ code

/-- The MTB_TICK register as it reads: tick n spans m-time [n * L, (n + 1) * L) (R54). -/
def State.tickView (s : State) : Reg64 :=
  putFld (s.reg .MTB_TICK) 47 0 (s.mtime / tickLen (s.get F.MTB_TICK_len_now))

/-- MTB_RASTER_PHASE as it reads: zero for a disabled raster (log 27). -/
def State.rasterView (s : State) (k : Nat) : Reg64 :=
  let (f, l) := s.rasterPhase k s.nanos
  BitVec.ofNat 64 (unsigned 48 f * 2 ^ 16 + l % 2 ^ 16)

/-! ### PTP (02 R49-R51) -/

/-- The present time in 2^-16 ns, moved by a delay. -/
def State.fineMoved (s : State) (d : Int) : Nat := ((s.mtb.time / s.mtb.k : Nat) + d).toNat

/-- A timestamp moved by a delay in 2^-16 ns. -/
def State.stampMoved (s : State) (d : Int) : Nat :=
  let t := s.fineMoved d
  stampOf (t / 65536) (t % 65536)

/-- The receive timestamp of a port: the replica's time minus rx_delay (R51). -/
def State.rxStamp (s : State) (port : Nat) : Nat := s.stampMoved (-(signed 32 (s.get F.MTB_ASYM_rx_delay 0 port)))

/-- The transmit timestamp of a port: the replica's time plus tx_delay (R51). -/
def State.txStamp (s : State) (port : Nat) : Nat := s.stampMoved (signed 32 (s.get F.MTB_ASYM_tx_delay 0 port))

/-- An item of MTB_PTP_QUEUE: the port and the timestamp in word 0, the message's first 64 bytes after it (R49; the
layout is log 28). What a shorter message leaves of the 64 bytes is a free value. -/
def State.pushPtp (s : State) (port stamp : Nat) (msg : List Byte) : State :=
  let short := 64 - msg.length
  let (x, s) := if short = 0 then (0, s) else s.fresh
  let b := msg.take 64 ++ leBytes short x
  let w (i : Nat) : Word := BitVec.ofNat 128 (leNat ((b.drop (16 * i)).take 16))
  s.pushItem .mtb (s.get F.MTB_PTP_QUEUE_queue) [BitVec.ofNat 128 (port * 2 ^ 96 + stamp), w 0, w 1, w 2, w 3]

/-- The sourcePortIdentity of a port: clock_id and port number p + 1 (R61). -/
def State.portIdentity (s : State) (port : Nat) : List Byte :=
  beBytes 8 (s.get F.MTB_CLOCK_ID_clock_id) ++ beBytes 2 (port + 1)

/-- A PTP message: the common header of IEEE 1588-2019 and a body (log 29). -/
def State.ptpMsg (s : State) (port type flags seqId logInt : Nat) (corr : List Byte) (body : List Byte) : List Byte :=
  beBytes 1 type ++ beBytes 1 0x12 ++ beBytes 2 (34 + body.length) ++ beBytes 1 (s.get F.MTB_CTRL_domain) ++ beBytes 1 0 ++
  beBytes 2 flags ++ corr ++ beBytes 4 0 ++ s.portIdentity port ++ beBytes 2 seqId ++ beBytes 1 0 ++ beBytes 1 logInt ++ body

/-- A timestamp as PTP sends it: 6 bytes of seconds, 4 of nanoseconds. -/
def ptpTime (stamp : Nat) : List Byte := beBytes 6 (stamp / 2 ^ 48) ++ beBytes 4 (stamp / 2 ^ 16 % 2 ^ 32)

/-- Does a port send PTP messages: not in transport 3 (R61)? -/
def State.ptpSends (s : State) (port : Nat) : Bool := s.get F.MTB_PTP_PORT_transport 0 port != 3

/-- A PTP message waits on a port from now on: `corr` is the correctionField of what it answers, `dest` a unicast requester. -/
def State.ptpQueue (s : State) (port : Nat) (msg : List Byte) (corr : Nat := 0) (dest : Option (Nat × Nat) := none) : State :=
  { s with ports := { s.ports with ptp := s.ports.ptp.put port (s.ports.ptp.getD port [] ++
      [⟨s.nanos, s.fineMoved (-(signed 32 (s.get F.MTB_ASYM_rx_delay 0 port))), corr, dest, msg⟩]) } }

/-- Does the hardware answer a received message: of the device's domain (R50), on a port that sends? -/
def State.ptpAnswers (s : State) (port : Nat) (msg : List Byte) : Bool :=
  s.ptpSends port && ((msg[4]?).getD 0).toNat == s.get F.MTB_CTRL_domain

/-- The interval of Sync on a port, ns: 2^sync_log s, sync_log held to −7 to +1 (R49, R50). -/
def State.syncPeriod (s : State) (port : Nat) : Nat :=
  let l := clampInt (signed 8 (s.get F.MTB_PTP_PORT_sync_log 0 port)) (-7) 1
  10 ^ 9 * 2 ^ (l + 7).toNat / 128

end Sys2Proof.Machine
end

