-- ==== Sys2Proof/Machine/DisOps.lean ====
section
/-! DEFINITION. Accounts and dispatch (10): charges and exhaustion, the tick boundary, ready lists, placing and
displacing tasks, task sets, and the write side effects of the DIS registers. -/
namespace Sys2Proof.Machine

/-! ### Accounts (R258-R264) -/

/-- The four currencies, in the order of R258. -/
def Acct.cur (a : Acct) (c : Nat) : Currency :=
  match c with
  | 0 => a.sc
  | 1 => a.cc
  | 2 => a.gr
  | _ => a.dram

/-- A currency of an account set. -/
def Acct.setCur (a : Acct) (c : Nat) (x : Currency) : Acct :=
  match c with
  | 0 => { a with sc := x }
  | 1 => { a with cc := x }
  | 2 => { a with gr := x }
  | _ => { a with dram := x }

/-- left (R260). -/
def Currency.left (x : Currency) : Int := x.g + x.reserve - x.spent

/-- An account that nothing has granted or charged. -/
def Acct.start : Acct :=
  { sc := ⟨0, 0, 0⟩, cc := ⟨0, 0, 0⟩, gr := ⟨0, 0, 0⟩, dram := ⟨0, 0, 0⟩, metered := false, exempt := false, prio := 0,
    exhausted := false, counted := false }

/-- An account of the dispatcher. -/
def State.acct (s : State) (a : Nat) : Acct := s.dis.accts.getD a Acct.start

/-- An account set. -/
def State.setAcct (s : State) (a : Nat) (x : Acct) : State := { s with dis := { s.dis with accts := s.dis.accts.put a x } }

/-- Is an account exhausted: metered, with left below zero in some currency (R263)? -/
def Acct.isOut (a : Acct) : Bool :=
  a.metered && (decide (a.sc.left < 0) || decide (a.cc.left < 0) || decide (a.gr.left < 0) || decide (a.dram.left < 0))

/-- The state of a task's record written (R265). -/
def State.recState (s : State) (rec st : Nat) : State := s.putWord (rec + 32) 127 124 st

/-- The station of a task that leaves a slot or a core is idle from now on, unless another task is there (18 R418). -/
def State.touchStation (s : State) (rec : Nat) : State :=
  match ((s.dis.tasks.find? (fun t => t.record == rec)).map (·.place) : Option Place) with
  | some (.slot c) => { s with sys := { s.sys with idleAt := s.sys.idleAt.put (c / 4) s.upNs } }
  | some (.running c) => { s with sys := { s.sys with idleAt := s.sys.idleAt.put (c / 4) s.upNs } }
  | _ => s

/-- A task's place in the dispatcher. -/
def State.setPlace (s : State) (rec : Nat) (p : Place) : State :=
  let s := s.touchStation rec
  { s with dis := { s.dis with tasks := s.dis.tasks.map (fun t => if t.record = rec then { t with place := p } else t) } }

/-- A task that leaves the dispatcher. -/
def State.dropTask (s : State) (rec : Nat) : State :=
  let s := s.touchStation rec
  { s with dis := { s.dis with tasks := s.dis.tasks.filter (fun t => t.record != rec) } }

/-- A slot task displaced back to its ready list (R267). -/
def State.displace (s : State) (t : Task) : State :=
  let s := (s.setPlace t.record .ready).count F.DIS_CNT_displaced
  let w := s.word (t.record + 32)
  s.setWord (t.record + 32) (putFld (putFld w 127 124 1) 79 64 (satAdd 16 (fld w 79 64) 1))

/-- Every slot task that meets `p` displaced. -/
def State.displaceAll (s : State) (p : Task → Bool) : State :=
  (s.dis.tasks.filter (fun t => p t && (match t.place with | .slot _ => true | _ => false))).foldl State.displace s

/-- An account's exhaustion judged again: a change is news for every consumer, ticks of exhaustion are counted, and an
exhausted account's slot tasks are displaced (R263, R264, R267). -/
def State.judge (s : State) (a : Nat) : State :=
  let x := s.acct a
  let out := x.isOut
  let s := if out && !x.counted then s.count F.DIS_ACCT_STAT_exh_ticks 1 0 a else s
  let s := s.setAcct a { x with exhausted := out, counted := x.counted || out }
  let s := if out != x.exhausted then { s with dis := { s.dis with news := s.dis.news ++ [(a, out)] } } else s
  if out then s.displaceAll (fun t => t.account == a) else s

/-- A charge of `n` units of currency `c` to account `a` (R258, R263). -/
def State.charge (s : State) (a c n : Nat) : State :=
  let x := s.acct a
  let y := x.cur c
  (s.setAcct a (x.setCur c { y with spent := y.spent + n })).judge a

/-- What a consumer knows of an account: the latest news it has received (R263). -/
def State.knowsOut (s : State) (who : Agent) (a : Nat) : Bool :=
  let n := ((s.dis.heard.find? (fun e => e.1 == who)).map (·.2)).getD 0
  (((s.dis.news.take n).reverse.find? (fun e => e.1 == a)).map (·.2)).getD false

/-- A consumer receives the next news, in order. -/
def State.hear (s : State) (who : Agent) : State :=
  let n := ((s.dis.heard.find? (fun e => e.1 == who)).map (·.2)).getD 0
  if n < s.dis.news.length then
    { s with dis := { s.dis with heard := (who, n + 1) :: s.dis.heard.filter (fun e => e.1 != who) } }
  else s

/-- The effective grant (R260). -/
def effGrant (grant scale : Nat) (exempt : Bool) : Nat := if exempt then grant else grant * scale / 65536

/-- One currency at a tick boundary (R260). -/
def Currency.renew (x : Currency) (g rq : Nat) : Currency :=
  { spent := 0, reserve := clampInt (x.left) (-(g : Int)) ((g * min rq 4) / 16 : Nat), g := g }

/-- An account at a tick boundary, with the configuration that takes force (R260, R261). -/
def State.renewAcct (s : State) (a : Nat) : State :=
  let x := s.acct a
  let ex := s.flag F.DIS_ACCT_CFG_exempt 0 a
  let rq := s.get F.DIS_ACCT_CFG_rq 0 a
  let k := s.get F.DIS_SCALE_scale
  let g (f : RegField) := effGrant (s.get f 0 a) k ex
  let x := { x with
    sc := x.sc.renew (g F.DIS_ACCT_GRANT0_sc) rq
    cc := x.cc.renew (g F.DIS_ACCT_GRANT0_cc) rq
    gr := x.gr.renew (g F.DIS_ACCT_GRANT1_gr) rq
    dram := x.dram.renew (g F.DIS_ACCT_GRANT1_dram) rq
    metered := s.flag F.DIS_ACCT_CFG_metered 0 a
    exempt := ex
    prio := s.get F.DIS_ACCT_CFG_prio 0 a
    counted := false }
  (s.setAcct a x).judge a

/-- First address of the account registers (R274). -/
def acctBase : Nat := RegAddr.addr ⟨.DIS_ACCT_CFG, 0, 0⟩

/-- Every account that has been charged or configured. -/
def State.acctsInUse (s : State) : List Nat :=
  let written := s.regs.filterMap (fun (a, _) =>
    if acctBase ≤ a ∧ a < acctBase + 0x40 * 4096 then some ((a - acctBase) / 0x40) else none)
  ((s.dis.accts.map (·.1)) ++ written).foldl (fun l a => if l.contains a then l else l ++ [a]) []

/-! ### Stations, lists and order (R265-R267) -/

/-- The physical station bound to a logical station. -/
def State.physOf (s : State) (n : Nat) : Nat := s.get F.DEV_STN_MAP_phys 0 n

/-- The logical station that a physical one serves. -/
def State.logOf (s : State) (p : Nat) : Option Nat := (List.range 128).find? (fun n => s.physOf n == p)

/-- Does list `l` serve core `c` = 4 * logical station + k (R266)? -/
def State.serves (s : State) (l c : Nat) : Bool :=
  let n := c / 4
  let m := if n < 64 then s.reg .DIS_LIST_STN0 0 l else s.reg .DIS_LIST_STN1 0 l
  bit m (n % 64) && (s.get F.DIS_LIST_CFG_cores 0 l).testBit (c % 4)

/-- Does task `a` precede task `b` (R266)? -/
def State.precedes (s : State) (a b : Task) : Bool :=
  let pa := (s.acct a.account).prio
  let pb := (s.acct b.account).prio
  decide (a.deadline < b.deadline) || (a.deadline == b.deadline && (decide (pa > pb) || (pa == pb && decide (a.arrival < b.arrival))))

/-- The task on a logical core. -/
def State.runningOn (s : State) (c : Nat) : Option Task := s.dis.tasks.find? (fun t => t.place == .running c)

/-- The task in a logical core's slot. -/
def State.slotOf (s : State) (c : Nat) : Option Task := s.dis.tasks.find? (fun t => t.place == .slot c)

/-- A task inserted in a list of tasks by the order of R266. -/
def State.insertTask (s : State) (t : Task) : List Task → List Task
  | [] => [t]
  | u :: us => if s.precedes t u then t :: u :: us else u :: State.insertTask s t us

/-- The tasks that may be dispatched, best first (R266): ready, in enabled lists, of accounts not exhausted. -/
def State.candidates (s : State) : List Task :=
  (s.dis.tasks.filter (fun t => t.place == .ready && s.flag F.DIS_LIST_CFG_en 0 t.list && !(s.acct t.account).exhausted)).foldl
    (fun l t => s.insertTask t l) []

/-- The cores of stations in service (or power-gated) that a task may run on, lowest first. -/
def State.coresFor (s : State) (t : Task) : List Nat :=
  (List.range 512).filter (fun c =>
    s.serves t.list c && (s.get F.DIS_STN_STATE_state 0 (c / 4) == 0 || s.get F.DIS_STN_STATE_state 0 (c / 4) == 4))

/-- A ready task goes into a core's slot (state 2). -/
def State.toSlot (s : State) (t : Task) (c : Nat) : State := (s.setPlace t.record (.slot c)).recState t.record 2

/-- The slot task that stands last in the order of R266 among those that `t` precedes. -/
def State.weakest (s : State) (t : Task) (cores : List Nat) : Option (Task × Nat) :=
  cores.foldl (fun best c =>
    match s.slotOf c with
    | none => best
    | some u =>
      if !s.precedes t u then best else
        match best with
        | none => some (u, c)
        | some (b, d) => if s.precedes b u then some (u, c) else some (b, d)) none

/-- A task placed as R267 states: an idle core, an empty slot behind a running task, or a displaced slot. -/
def State.placeTask (s : State) (t : Task) : Option State :=
  let cores := s.coresFor t
  match cores.find? (fun c => (s.runningOn c).isNone && (s.slotOf c).isNone) with
  | some c => some (s.toSlot t c)
  | none =>
    match cores.find? (fun c => (s.slotOf c).isNone) with
    | some c => some (s.toSlot t c)
    | none =>
      match s.weakest t cores with
      | some (u, c) => some ((s.displace u).toSlot t c)
      | none => none

/-- The first of the candidates that has a place is placed (R267). -/
def State.placeFirst (s : State) : List Task → Option State
  | [] => none
  | t :: ts => match s.placeTask t with
    | some s' => some s'
    | none => State.placeFirst s ts

/-- One placing by the dispatcher, while DIS_CTRL.en is 1. -/
def State.fillSlot (s : State) : State :=
  if s.flag F.DIS_CTRL_en then (s.placeFirst s.candidates).getD s else s

/-- The dispatcher places everything that has a place. -/
def State.dispatch : Nat → State → State
  | 0, s => s
  | n + 1, s =>
    if s.flag F.DIS_CTRL_en then
      match s.placeFirst s.candidates with
      | some s' => State.dispatch n s'
      | none => s
    else s

/-! ### TREADY, TCANCEL and task sets (R268-R270) -/

/-- Entries a list holds (R266). -/
def State.listHeld (s : State) (l : Nat) : Nat := (s.dis.tasks.filter (fun t => t.list == l)).length

/-- A refusal counted (R268, R270). -/
def State.refuseReady (s : State) (l : Nat) : State :=
  ((s.count F.DIS_CNT_refused).bump F.DIS_LIST_STAT_refusals 1 0 l).put F.DIS_STATUS_refused_evt 1

/-- TREADY with `base` the m-time that a relative deadline counts from: status 0x00 or 0x03 (R268). -/
def State.tready (s : State) (rec base : Nat) : Nat × State :=
  let w0 := s.word rec
  let l := fld w0 51 46
  let st := fld (s.word (rec + 32)) 127 124
  if s.flag F.DIS_LIST_CFG_en 0 l && decide (s.listHeld l < s.get F.DIS_LIST_CFG_cap 0 l) && !(st == 1 || st == 2 || st == 3) then
    let d := fld w0 127 64
    let eff := if bit w0 33 then (base + d) % 2 ^ 64 else d
    let s := (s.recState rec 1).putWord (rec + 48) 127 64 eff
    let t : Task := ⟨rec, l, fld w0 63 52, eff, s.dis.arrivals, .ready⟩
    (0x00, { s with dis := { s.dis with tasks := s.dis.tasks ++ [t], arrivals := s.dis.arrivals + 1 } })
  else (0x03, s.refuseReady l)

/-- TCANCEL: status 0x00, 0x05 or 0x06 (R269). -/
def State.tcancel (s : State) (rec : Nat) : Nat × State :=
  match s.dis.tasks.find? (fun t => t.record == rec) with
  | none => (0x06, s)
  | some t =>
    match t.place with
    | .ready => (0x00, (s.dropTask rec).recState rec 7)
    | .slot _ => (0x05, (s.dropTask rec).recState rec 7)
    | .running _ => (0x06, s)

/-- One record of a task set: skipped where it is ready, in a slot or running, else a TREADY (R270). -/
def State.setRecord (base : Nat) (s : State) (rec : Nat) : State :=
  let st := fld (s.word (rec + 32)) 127 124
  if st = 1 ∨ st = 2 ∨ st = 3 then (s.count F.DIS_CNT_refused).put F.DIS_STATUS_refused_evt 1
  else (s.tready rec base).2

/-- A task set released at m-time `base` (R270): its records in array order. -/
def State.releaseSet (s : State) (set base : Nat) : State :=
  let e := leNat (s.rd (s.get F.DIS_SET_BASE_base * 2 ^ 20 + 8 * set) 8)
  (List.range (e / 2 ^ 48)).foldl (fun s i => s.setRecord base (leNat (s.rd (e % 2 ^ 48 + 8 * i) 8))) s

/-- Is m-time `t` at or after the trigger? -/
def atOrAfter (t trigger : Nat) : Bool := (t + 2 ^ 64 - trigger % 2 ^ 64) % 2 ^ 64 < 2 ^ 63

/-- A set inserted by its index. -/
def insertSet (r : SetRun) : List SetRun → List SetRun
  | [] => [r]
  | u :: us => if r.set < u.set then r :: u :: us else u :: insertSet r us

/-- The sets due at the boundary `t` released, in ascending index (R262, R270). -/
def State.releaseSets (s : State) (t : Nat) : State :=
  let due := (s.dis.sets.filter (fun r => atOrAfter t r.trigger)).foldl (fun l r => insertSet r l) []
  let s := { s with dis := { s.dis with sets := s.dis.sets.filter (fun r => !atOrAfter t r.trigger) } }
  due.foldl (fun s r => s.releaseSet r.set t) s

/-- A start of a task set arrives (R270): released at once where the boundary it waits for has passed. -/
def State.startSet (s : State) (set trigger : Nat) (late : Bool) : State :=
  if late && atOrAfter s.mtb.tickAt trigger then s.releaseSet set s.mtime
  else { s with dis := { s.dis with sets := s.dis.sets ++ [⟨set, trigger, late⟩] } }

/-- The next boundary after the last one served: at once after a set, else the next multiple of the length (R45, R54). -/
def State.nextTick (s : State) : Nat :=
  let len := tickLen (s.get F.MTB_TICK_len_now)
  if s.mtb.tickCut then s.mtime else (s.mtb.tickAt / len + 1) * len

/-- Is a tick boundary due? -/
def State.tickDue (s : State) : Bool := decide (s.nextTick ≤ s.mtime)

/-- The tick length in force from a boundary at m-time `t` on (R54): the requested one when the boundary is a multiple
of the longer length. -/
def State.tickLenAt (s : State) (t : Nat) : Nat :=
  let now := s.get F.MTB_TICK_len_now
  let sel := s.get F.MTB_TICK_len_sel
  if t % tickLen (max now sel) = 0 then sel else now

/-! ### What codec cores show (05 R148) -/

/-- A codec core. -/
def State.vccOf (s : State) (n : Nat) : Vcc := s.vcc.getD n ⟨none, [], none, 0⟩

/-- The account of a job. -/
def Job.account (j : Job) : Nat := fld j.w0 63 52

/-- Is a job word 0 an encode job's? -/
def isEncode (w0 : Word) : Bool := decide (fld w0 51 48 ≥ 8)

/-- The state field of VCC_STATUS for what a core does: a drained, halted or gated core keeps its state (05 R148). -/
def State.vccState (s : State) (n : Nat) : Nat :=
  let old := s.get F.VCC_STATUS_state n
  if old ≥ 5 then old else
    match (s.vccOf n).cur with
    | some j => if j.paused then 3 else if isEncode j.w0 then 2 else 1
    | none => if (s.vccOf n).gang.isSome then 4 else 0

/-- VCC_STATUS of a core brought up to what it does. -/
def State.showVcc (s : State) (n : Nat) : State :=
  let j := (s.vccOf n).cur
  let s := s.put F.VCC_STATUS_state (s.vccState n) n
  let s := s.put F.VCC_STATUS_account ((j.map Job.account).getD 0) n
  s.put F.VCC_STATUS_ctx ((j.map (fun j => if isEncode j.w0 then 0 else fld j.w0 47 16)).getD 0) n

/-- Codec jobs paused for exhaustion are eligible again where their account is no longer exhausted (R262, 06 R158). -/
def State.unpause (s : State) : State :=
  let f (j : Job) : Job := { j with paused := j.paused && (s.acct j.account).exhausted }
  let s := { s with vcc := s.vcc.map (fun e : Nat × Vcc => (e.1, { e.2 with cur := e.2.cur.map f, susp := e.2.susp.map f })) }
  (s.vcc.map (·.1)).foldl State.showVcc s

/-- A tick boundary (R54, R262): accounts, eligibility, task sets, dispatch. -/
def State.tickBoundary (s : State) : State :=
  let t := s.nextTick
  let s := s.put F.MTB_TICK_len_now (s.tickLenAt t)
  let s := { s with mtb := { s.mtb with tickAt := t, tickCut := false }, sys := { s.sys with firstEst := true } }
  let s := (s.acctsInUse.foldl State.renewAcct s).unpause
  let s := s.releaseSets t
  s.dispatch s.dis.tasks.length

/-! ### Ends of tasks (R265, R271) -/

/-- The completion item of a task, pushed to its done_q (R265). -/
def State.completion (s : State) (rec result : Nat) : State :=
  s.pushItem .dis (fld (s.word rec) 31 12) [s.stampWord (BitVec.ofNat 128 (result * 2 ^ 56 + rec))]

/-- A running task is voided (R271): state 6, its item, its count. -/
def State.voidTask (s : State) (t : Task) : State :=
  let s := (s.dropTask t.record).recState t.record 6
  ((s.completion t.record 2).count F.DIS_CNT_void).put F.DIS_STATUS_void_evt 1

/-! ### Writes of DIS registers (R274) -/

/-- A write of DIS_LIST_CFG: refused when the caps of the enabled lists would sum to more than 65,536. -/
def State.wrListCfg (s : State) (l : Nat) (v : Reg64) : State :=
  let s1 := s.setReg .DIS_LIST_CFG (codedWrite RegName.DIS_LIST_CFG.info (s.reg .DIS_LIST_CFG 0 l) v) 0 l
  let sum := (List.range 64).foldl (fun n i =>
    n + (if s1.flag F.DIS_LIST_CFG_en 0 i then s1.get F.DIS_LIST_CFG_cap 0 i else 0)) 0
  if sum > 65536 then s.put F.DIS_LIST_STAT_refused 1 0 l else s1.put F.DIS_LIST_STAT_refused 0 0 l

/-- DIS_LIST_STAT as it reads. -/
def State.listStatView (s : State) (l : Nat) : Reg64 := putFld (s.reg .DIS_LIST_STAT 0 l) 63 47 (s.listHeld l)

/-- DIS_ACCT_LEFT0 and LEFT1 as they read: two signed counts of 32 bits. -/
def leftView (a b : Currency) : Reg64 := BitVec.ofNat 64 (unsigned 32 a.left * 2 ^ 32 + unsigned 32 b.left)

/-- DIS_ACCT_STAT as it reads: the currencies in which a metered account is exhausted. -/
def State.acctStatView (s : State) (a : Nat) : Reg64 :=
  let x := s.acct a
  let f (c : Currency) (w : Nat) : Nat := if x.metered && decide (c.left < 0) then w else 0
  putFld (s.reg .DIS_ACCT_STAT 0 a) 63 60 (f x.sc 8 + f x.cc 4 + f x.gr 2 + f x.dram 1)

/-- DIS_STN_STATE as it reads: its state field and the bound physical station. -/
def State.stnStateView (s : State) (n : Nat) : Reg64 := putFld (s.reg .DIS_STN_STATE 0 n) 7 0 (s.physOf n)

end Sys2Proof.Machine
end

