-- ==== Sys2Proof/Machine/MemOps.lean ====
section
/-! DEFINITION. The memory nodes (13): bands, tile writes and reads with their checks, failure reports, the scheduler's
rows, refreshes, replays and self-refresh, and retraining; and where nodes stand in the graticule (01 R18-R21). -/
namespace Sys2Proof.Machine

/-! ### Placement (01 R18-R21) -/

/-- Global coordinates of a local router of quadrant q (01 R18). -/
def globalAt (q lx ly : Nat) : Nat × Nat :=
  ((if q % 2 = 0 then lx else 15 - lx), (if q / 2 = 0 then ly else 15 - ly))

/-- How many ports a unit's node has (01 R19). -/
def portsOf : Agent → Nat
  | .lg _ => 4
  | .engine _ => 4
  | .mem _ => 4
  | .cmp _ => 2
  | _ => 1

/-- A core's node: a physical station, or a control cluster from 256 on. -/
def coreNode (n : Nat) : Nat := if n < 1024 then n / 4 else 256 + (n - 1024) / 4

/-- The router of a core's node, and its local port (01 R21). -/
def corePlace (n : Nat) : (Nat × Nat) × Nat :=
  (if n < 1024 then globalAt (n / 4 / 34) (2 + n / 4 % 34 % 6) (2 + n / 4 % 34 / 6) else globalAt ((n - 1024) / 4) 6 1, 0)

/-- The router and the local port, L0 or L1, of port `p` of a unit's node (01 R19-R21). -/
def portPlace (a : Agent) (p : Nat) : (Nat × Nat) × Nat :=
  match a with
  | .core n => corePlace n
  | .mover n => corePlace n
  | .lg n => (globalAt (n / 4) (2 + n % 4) (p / 2), p % 2)
  | .engine n => (globalAt (n / 24) (2 + n / 6 % 4) (p / 2), p % 2)
  | .vcc n => (if n % 16 < 12 then globalAt (n / 16) (2 + n % 16 % 6) (2 + n % 16 / 6) else globalAt (n / 16) (n % 16 - 10) 4, 1)
  | .cmp n => (globalAt n (6 + p) 7, 0)
  | .aud n => (globalAt 3 (6 + n) 0, 0)
  | .mem n => (globalAt (n / 8) (p / 2) (n % 8), p % 2)
  | .mtb => (globalAt 0 6 0, 0)
  | .hif => (globalAt 0 7 0, 0)
  | .sec => (globalAt 1 6 0, 0)
  | .log => (globalAt 1 7 0, 0)
  | .dis => (globalAt 2 6 0, 0)
  | .pwr => (globalAt 2 7 0, 0)

/-- The number of a unit's node, by kind: what R26 hashes. -/
def nodeNo : Agent → Nat
  | .core n => coreNode n
  | .mover n => coreNode n
  | .lg n => 512 + n
  | .engine n => 512 + n / 6
  | .vcc n => 768 + n
  | .cmp n => 1024 + n
  | .aud n => 1280 + n
  | .mem n => 1536 + n
  | .mtb => 1792
  | .hif => 1793
  | .sec => 1794
  | .log => 1795
  | .dis => 1796
  | .pwr => 1797

/-- The virtual channels (01 R27). -/
inductive Channel where
  | control | media | bulk
  deriving DecidableEq, Repr

/-- The port of a unit's node that a packet to it uses: port 0 on the control channel, else the hash of R26, which the spec does
not state (log 89). -/
def portTo (a : Agent) (c : Channel) : Nat :=
  if portsOf a = 1 ∨ c = .control then 0 else Config.portHash (nodeNo a) (if c = .media then 1 else 2) % portsOf a

/-- The router at which tiles reach a unit that reads them, on the media channel. DESIGN CHOICE (log 89) for a unit on two routers. -/
def routerOf (a : Agent) : Nat × Nat := (portPlace a (portTo a .media)).1

/-- Verification of `n` tiles from `pa` by a unit: the failing tiles are reported (R329). -/
def State.verifyBy (s : State) (who : Agent) (kind : TileReader) (n pa : Nat) : State × List Nat :=
  State.verifyTiles kind (routerOf who).1 (routerOf who).2 n (pa / 512 * 512) s

/-! ### Failure reports (R317, R331) -/

/-- The counter of a reader's kind. -/
def crcField : TileReader → RegField
  | .forwarder => F.MEM_CRC_CNT0_forwarder
  | .decoder => F.MEM_CRC_CNT0_decoder
  | .encoder => F.MEM_CRC_CNT0_encoder
  | .composer => F.MEM_CRC_CNT0_composer
  | .audio => F.MEM_CRC_CNT1_audio
  | .mover => F.MEM_CRC_CNT1_mover
  | .other => F.MEM_CRC_CNT1_other
  | .writePath => F.MEM_CRC_CNT1_write_path

/-- The kind number of MEM_CRC_LAST. -/
def crcKind : TileReader → Nat
  | .forwarder => 0 | .decoder => 1 | .encoder => 2 | .composer => 3 | .audio => 4 | .mover => 5 | .other => 6 | .writePath => 7

/-- A failure counted and recorded at its node (R331): unbacked ones at node 0 as kind 6 with store 1. -/
def State.recordFail (s : State) (r : CrcReport) : State :=
  let ch := ((s.tilePlace r.addr).map (·.1)).getD 0
  let node := if r.unbacked then 0 else ch / 8
  let kind := if r.unbacked then .other else r.kind
  let s := s.count (crcField kind) 1 node
  let last := crcKind kind * 2 ^ 60 + bnat (r.store || r.unbacked) * 2 ^ 59 + r.gx * 2 ^ 52 + r.gy * 2 ^ 48 + r.addr % 2 ^ 48
  let s := s.setReg .MEM_CRC_LAST (BitVec.ofNat 64 last) node
  s.logEv (if kind = .writePath then 0x0D02 else 0x0D01) (0x40 + node) (if r.unbacked then 0 else ch % 8) 5
    (snapOf (s.reg .MEM_CRC_LAST node) ++ snapOf (s.reg .MEM_CRC_CNT0 node) ++ snapOf (s.reg .MEM_CRC_CNT1 node))

/-- The oldest report reaches its node. -/
def State.takeReport (s : State) : State :=
  match s.mem.reports with
  | [] => s
  | r :: rest => ({ s with mem := { s.mem with reports := rest } }).recordFail r

/-! ### Channels and their requests (R314, R319-R325) -/

/-- A channel that nothing has asked anything of. -/
def Chan.idle : Chan :=
  { reqs := [], rows := [], inorder := [], nbr := [], retry := [], retryAt := 0, replaying := false, fails := 0, lastReq := 0 }

/-- Channel `c` (0-255). -/
def State.chan (s : State) (c : Nat) : Chan := s.mem.chans.getD c Chan.idle

/-- A channel set. -/
def State.setChan (s : State) (c : Nat) (x : Chan) : State := { s with mem := { s.mem with chans := s.mem.chans.put c x } }

/-- The bank of a channel-local tile, 48 * pseudo-channel + bank (R314). -/
def bankOf (u : Nat) : Nat := 48 * (u / 2 % 2) + u / 4 % 48

/-- The row of a channel-local tile (R314). -/
def rowOf (u : Nat) : Nat := u / 192

/-- A request reaches its channel (R319, R320), which has not failed (R324): a read to a row with an earlier write waiting puts the bank in order. -/
def State.request (s : State) (pa : Nat) (write : Bool) : State :=
  match s.tilePlace pa with
  | none => s
  | some (c, u) =>
    if s.chanOk c = false then s else
    let x := s.chan c
    let b := bankOf u
    let falls := !write && !x.inorder.contains b &&
      x.reqs.any (fun r => r.write && bankOf r.tile == b && rowOf r.tile == rowOf u)
    let s := s.setChan c { x with
      reqs := x.reqs ++ [⟨write, u⟩], lastReq := s.upNs, inorder := if falls then x.inorder ++ [b] else x.inorder }
    if falls then s.count F.MEM_STATUS_inorder 1 (c / 8) else s

/-- A row activation draws, with probability 2^-nbr_log2, a refresh of both neighbours (R322): the draw is a free value. -/
def State.activate (s : State) (c b row : Nat) : State :=
  let (n, s) := s.fresh
  let p := clampNat (s.get F.MEM_TIMING_nbr_log2 (c / 8)) 9 15
  if n % 2 ^ p ≠ 0 then s else
    let x := s.chan c
    s.setChan c { x with nbr := x.nbr ++ ((if row = 0 then [] else [(b, row - 1)]) ++ (if row + 1 < 16384 then [(b, row + 1)] else [])) }

/-- Commands issued before now retire once their alert window has passed (R323; log 32). -/
def Chan.retire (x : Chan) (now : Nat) : Chan :=
  if x.retryAt < now then { x with retry := [], replaying := false, fails := 0 } else x

/-- The oldest request of a channel is issued (R319, R320, R323): its row opens and stays open. -/
def State.serveDram (s : State) (c : Nat) : State :=
  let x := (s.chan c).retire s.upNs
  let s := s.setChan c x
  match x.reqs with
  | [] => s
  | r :: rest =>
    if s.get F.MEM_CHAN_STAT_state (c / 8) (c % 8) = 2 ∨ x.retry.length ≥ 32 then s else
      let b := bankOf r.tile
      let row := rowOf r.tile
      let opened := (x.rows.get? b).map (·.1) == some row
      let waits := rest.any (fun q => q.write && bankOf q.tile == b)
      let s := s.setChan c { x with
        reqs := rest, rows := x.rows.put b (row, s.upNs), retry := x.retry ++ [r], retryAt := s.upNs,
        inorder := if r.write && !waits then x.inorder.filter (· != b) else x.inorder }
      if opened then s else s.activate c b row

/-- The channel fails (R324): state 3 and record 0x0C01; what waits is answered with zeros or dropped. -/
def State.failChan (s : State) (c : Nat) : State :=
  let s := s.put F.MEM_CHAN_STAT_state 3 (c / 8) (c % 8)
  let s := s.setChan c { s.chan c with reqs := [], retry := [], replaying := false, fails := 0 }
  s.logEv 0x0C01 (0x40 + c / 8) (c % 8) 6 (snapOf (s.reg .MEM_CHAN_STAT (c / 8) (c % 8)) ++ snapOf (s.reg .MEM_ERR (c / 8)))

/-- A parity alert (R323, R324): the unretired commands replay; the eighth replay in succession that ends so fails the
channel. -/
def State.parity (s : State) (c : Nat) : State :=
  let x := (s.chan c).retire s.upNs
  let s := s.count F.MEM_ERR_alerts 1 (c / 8)
  let fails := if x.replaying then x.fails + 1 else 0
  if fails ≥ 8 then s.failChan c
  else (s.count F.MEM_ERR_replays 1 (c / 8)).setChan c { x with fails := fails, replaying := true, retryAt := s.upNs }

/-! ### Whole tiles (R326-R328) -/

/-- A whole tile arrives at its home node with the checksum it carries (R327, R328). -/
def State.arriveTile (s : State) (who : Agent) (pa : Nat) (data : List Byte) (crc : Nat) : State :=
  let s := (s.wrTile (pa / 512 * 512) data).request pa true
  if !s.guarded pa then s
  else if crc = crc32c data then s.setSum pa crc
  else
    let s := s.poison pa
    if (s.tilePlace pa).isNone then s
    else { s with mem := { s.mem with
      reports := s.mem.reports ++ [⟨.writePath, false, (routerOf who).1, (routerOf who).2, pa / 512 * 512, false⟩] } }

/-- A host write: one that covers less than a whole guarded tile poisons it (R327). -/
def State.hostWrite (s : State) (pa : Nat) (data : List Byte) : State :=
  let s := (s.wrTile pa data).request pa true
  if s.guarded pa then (if pa % 512 = 0 ∧ data.length = 512 then s.setSum pa (crc32c data) else s.poison pa) else s

/-! ### Bands (R316, R318) -/

/-- The channels that MEM_EXCL leaves included, as a mask. -/
def State.includedNow (s : State) : Nat :=
  (List.range 4).foldl (fun m j => m + (2 ^ 64 - 1 - (s.reg .MEM_EXCL 0 j).toNat) * 2 ^ (64 * j)) 0

/-- Number of set bits among 64 from bit `lo`. -/
def countBits (m lo : Nat) : Nat := ((List.range 64).filter (fun i => m.testBit (lo + i))).length

/-- Band b enabled: MEM_EXCL latched, the included channels of each quadrant shown (R318). -/
def State.enableBand (s : State) (b : Nat) : State :=
  let m := s.includedNow
  let s := { s with mem := { s.mem with bands := s.mem.bands.put b m } }
  let v := (List.range 4).foldl (fun v q => putFld v (56 - 7 * q) (50 - 7 * q) (countBits m (64 * q))) (s.reg .MEM_BAND 0 b)
  s.setReg .MEM_BAND (putFld (putFld v 63 63 1) 60 60 0) 0 b

/-- The write of MEM_BAND[b] (R318): judged against the en that the band holds before it (log 25). -/
def State.wrBand (s : State) (b : Nat) (v : Reg64) : State :=
  let order := fld v 62 61
  let refuse := s.put F.MEM_BAND_refused 1 0 b
  if s.flag F.MEM_BAND_en 0 b then
    if bit v 63 then
      if order = s.get F.MEM_BAND_order 0 b then s.put F.MEM_BAND_refused 0 0 b else refuse
    else ((s.put F.MEM_BAND_en 0 0 b).put F.MEM_BAND_order order 0 b).put F.MEM_BAND_refused 0 0 b
  else if bit v 63 then
    if s.mem.training ∨ order = 3 then refuse else (s.put F.MEM_BAND_order order 0 b).enableBand b
  else (s.put F.MEM_BAND_order order 0 b).put F.MEM_BAND_refused 0 0 b

/-- The end of start-up training (R318): failed channels excluded at state 3, every band enabled but one of order 3. -/
def State.endTraining (s : State) (failed : List Nat) : State :=
  let s := (List.range 256).foldl (fun s c =>
    if failed.contains c then
      (s.put F.MEM_CHAN_STAT_state 3 (c / 8) (c % 8)).setReg .MEM_EXCL (putFld (s.reg .MEM_EXCL 0 (c / 64)) (c % 64) (c % 64) 1) 0 (c / 64)
    else (s.put F.MEM_CHAN_STAT_state 0 (c / 8) (c % 8)).bump F.MEM_CHAN_STAT_trainings 1 (c / 8) (c % 8)) s
  let s := { s with mem := { s.mem with training := false } }
  (List.range 24).foldl (fun s b =>
    if s.get F.MEM_BAND_order 0 b = 3 then s.put F.MEM_BAND_refused 1 0 b else s.enableBand b) s

/-! ### Retraining (R332) -/

/-- Does an enabled band include channel c? -/
def State.inUse (s : State) (c : Nat) : Bool :=
  (List.range 24).any (fun b => s.flag F.MEM_BAND_en 0 b && (s.mem.bands.getD b 0).testBit c)

/-- A channel command reported. -/
def State.chanReport (s : State) (node ticket result : Nat) : State :=
  (s.put F.MEM_CHAN_RES_ticket ticket node).put F.MEM_CHAN_RES_result result node

/-- The channel commands of a node. -/
def State.chanCmds (s : State) (node : Nat) : List Cmd := s.mem.retrainQ.getD node []

/-- The channel commands of a node set. -/
def State.setChanCmds (s : State) (node : Nat) (l : List Cmd) : State :=
  { s with mem := { s.mem with retrainQ := s.mem.retrainQ.put node l } }

/-- The bytes of a channel no longer hold what was written: its data is not defined (R332; read as unwritten, log 5). -/
def State.forgetChan (s : State) (c : Nat) : State :=
  { s with dram := s.dram.filter (fun e => e.1 / 0x60000000 != c) }

/-- Service begins at the head of a node's channel commands: refused ones are reported, retraining starts (R332). -/
def State.startChanCmds (node : Nat) : Nat → State → State
  | 0, s => s
  | n + 1, s =>
    match s.chanCmds node with
    | [] => s
    | c :: rest =>
      if c.served.isSome then s
      else if s.inUse (8 * node + c.a) then
        State.startChanCmds node n ((s.setChanCmds node rest).chanReport node c.ticket 2)
      else
        ((s.setChanCmds node ({ c with served := some 0 } :: rest)).put F.MEM_CHAN_STAT_state 1 node c.a).forgetChan (8 * node + c.a)

/-- The write of MEM_CHAN_CMD: one in service and 4 waiting; more, or a bad op, is refused (R332). -/
def State.wrChanCmd (s : State) (node : Nat) (v : Reg64) : State :=
  let l := s.chanCmds node
  if l.length ≥ 5 ∨ fld v 63 60 ≠ 1 then s.chanReport node (fld v 59 52) 4
  else State.startChanCmds node 6 (s.setChanCmds node (l ++ [⟨1, fld v 59 52, fld v 2 0, 0, 0, none⟩]))

/-- The retraining in service ends (R332). -/
def State.endRetrain (s : State) (node : Nat) (ok : Bool) : State :=
  match s.chanCmds node with
  | c :: rest =>
    if c.served.isNone then s else
      let s := s.setChanCmds node rest
      let s := if ok then (s.put F.MEM_CHAN_STAT_state 0 node c.a).bump F.MEM_CHAN_STAT_trainings 1 node c.a
        else s.put F.MEM_CHAN_STAT_state 3 node c.a
      State.startChanCmds node 6 (s.chanReport node c.ticket (if ok then 1 else 3))
  | [] => s

end Sys2Proof.Machine
end

