-- ==== Sys2Proof/Machine/SecOps.lean ====
section
/-! DEFINITION. The security node and the cipher engines (14): key slots, locks, jobs, entropy, alarms, and the write and
read side effects of the SEC registers. -/
namespace Sys2Proof.Machine

/-! ### Key slots (R337-R340) -/

/-- The address of a slot's entry. -/
def State.slotAddr (s : State) (bank slot : Nat) : Nat := s.get F.SEC_KEY_BASE_base * 2 ^ 20 + bank * 2 ^ 23 + slot * 128

/-- A bank's wrapping key, 32 bytes. -/
def State.wrapping (s : State) (bank : Nat) : Bytes := beNats 32 (Config.wrapKey s.sec.epoch bank)

/-- The additional data of an entry: bank and slot, 3 bytes. -/
def slotAad (bank slot : Nat) : Bytes := [bank] ++ beNats 2 slot

/-- The 128 bytes of a wrapped entry (R337). -/
def State.wrapEntry (s : State) (bank slot gen : Nat) (material : Bytes) : List Byte :=
  let iv := leBytes 12 (bank * 2 ^ 92 + slot * 2 ^ 76 + gen % 2 ^ 64 * 2 ^ 12)
  let ct := gcmStream (s.wrapping bank) (nats iv) material
  iv ++ List.replicate 4 0 ++ ofNats ct ++ ofNats (gcmTag (s.wrapping bank) (nats iv) (slotAad bank slot) ct) ++ List.replicate 24 0

/-- The key material of a slot; none for an entry that fails to unwrap (R337). -/
def State.unwrap (s : State) (bank slot : Nat) : Option Bytes :=
  let b := s.rd (s.slotAddr bank slot) 128
  let iv := nats (b.take 12)
  let ct := nats ((b.drop 16).take 72)
  if nats ((b.drop 88).take 16) = gcmTag (s.wrapping bank) iv (slotAad bank slot) ct then some (gcmStream (s.wrapping bank) iv ct)
  else none

/-- A key as a link group uses it: from its cache, or unwrapped into it (R339; replacement is log 38). -/
def State.keyOf (s : State) (lg slot : Nat) : Option Bytes × State :=
  let k := 65536 * lg + slot
  match s.sec.caches.get? k with
  | some m => (some m, s)
  | none =>
    match s.unwrap lg slot with
    | none => (none, s)
    | some m =>
      let mine := s.sec.caches.filter (fun e => e.1 / 65536 == lg)
      let c := if mine.length ≥ 4096 then s.sec.caches.del ((mine.head?.map (·.1)).getD 0) else s.sec.caches
      (some m, { s with sec := { s.sec with caches := c.put k m } })

/-- A key command reported. -/
def State.keyReport (s : State) (ticket result : Nat) : State :=
  let s := (s.put F.SEC_KEY_STAT_ticket ticket).put F.SEC_KEY_STAT_result result
  if result = 1 then s.bump F.SEC_KEY_STAT_done else s

/-- The write of SEC_KEY_CMD: one command at a time (R338). -/
def State.wrKeyCmd (s : State) (v : Reg64) : State :=
  let t := fld v 59 52
  let op := fld v 63 60
  if s.sec.keyCmd.isSome then s.keyReport t 2
  else if op ≠ 1 ∧ op ≠ 2 then s.keyReport t 3
  else { s with sec := { s.sec with keyCmd := some ⟨op, t, fld v 51 48, fld v 47 32, 0, none⟩ } }

/-- The staging registers' 72 bytes. -/
def State.staging (s : State) : Bytes := (List.range 9).flatMap (fun j => nats (leBytes 8 (s.reg .SEC_KEY_DATA 0 j).toNat))

/-- The staging registers zeroed. -/
def State.zeroStaging (s : State) : State := (List.range 9).foldl (fun s j => s.setReg .SEC_KEY_DATA 0 0 j) s

/-- The key command in progress completes (R337-R339): the entry is written and every cache drops the slot. -/
def State.keyComplete (s : State) : State :=
  match s.sec.keyCmd with
  | none => s
  | some c =>
    let s := { s with sec := { s.sec with keyCmd := none, caches := s.sec.caches.filter (fun e => e.1 != 65536 * c.a + c.b) } }
    if c.op = 1 then
      let s1 := s.wr (s.slotAddr c.a c.b) (s.wrapEntry c.a c.b s.sec.gen s.staging)
      let s1 := { s1 with sec := { s1.sec with gen := s1.sec.gen + 1 } }
      s1.zeroStaging.keyReport c.ticket 1
    else (s.wr (s.slotAddr c.a c.b) (List.replicate 128 0)).keyReport c.ticket 1

/-! ### Locks (R335, R341, R342) -/

/-- A lock register's content. -/
def lockWord (kind holder account : Nat) : Reg64 := BitVec.ofNat 64 (kind * 2 ^ 61 + holder * 2 ^ 22 + account * 2 ^ 10)

/-- An engine released: what is left in job_q is the program's. -/
def State.freeLock (s : State) (e : Nat) : State :=
  { s.setReg .SEC_LOCK 0 0 e with sec := { s.sec with jobQ := s.sec.jobQ.del e } }

/-- The result of a request item, with its effect (R341). -/
def State.lockRequest (s : State) (w : Word) : Nat × State :=
  let op := fld w 127 124
  let kind := fld w 123 121
  let e := fld w 120 114
  let holder := fld w 113 75
  if (op ≠ 1 ∧ op ≠ 2) ∨ (kind ≠ 2 ∧ kind ≠ 3) ∨ e > 95 then (5, s)
  else if e % 6 ≤ 3 then (3, s)
  else
    let k := s.get F.SEC_LOCK_kind 0 e
    let mine := k == kind && s.get F.SEC_LOCK_holder 0 e == holder
    if op = 1 then
      if k ≠ 0 ∧ !mine then (2, s) else
        (0, { s.setReg .SEC_LOCK (lockWord kind holder (fld w 74 63)) 0 e with
          sec := { s.sec with jobQ := s.sec.jobQ.put e (fld w 62 43) } })
    else if mine then (1, s.freeLock e) else (4, s)

/-- The request at the head of the queue of SEC_REQ_QUEUE, if it is one of those asked for, served and answered (R341). -/
def State.serveRequest (s : State) (p : Nat → Bool) : State :=
  let q := s.get F.SEC_REQ_QUEUE_queue
  match s.flag F.SEC_REQ_QUEUE_en, s.popItem q with
  | true, some (w :: _, s1) =>
    if !p (fld w 127 124) then s else
      let (r, s2) := s1.lockRequest w
      let s2 := if r ≥ 2 then s2.count F.SEC_CNT_lock_refused else s2
      let reply : Word := BitVec.ofNat 128 (fld w 22 15 * 2 ^ 56 + r * 2 ^ 48 + fld w 120 114 * 2 ^ 41)
      s2.pushItem .sec (fld w 42 23) [s2.stampWord reply]
  | _, _ => s

/-- Does the holder of an engine's lock no longer hold it: a task in state 4 to 7, a control core in reset (R342)? -/
def State.lockLapsed (s : State) (e : Nat) : Bool :=
  let holder := s.get F.SEC_LOCK_holder 0 e
  match s.get F.SEC_LOCK_kind 0 e with
  | 2 => let st := fld (s.word (holder * 512 + 32)) 127 124; decide (4 ≤ st ∧ st ≤ 7)
  | 3 => ((s.sys.clusters.get? (holder / 4)).map (·.held)).getD true
  | _ => false

/-! ### Jobs (R343, R344) -/

/-- Charges of moving `n` bytes over the graticule and to or from DRAM, tile by tile (01 R25, 10 R258; log 36). -/
def State.chargeBytes (s : State) (a n : Nat) : State :=
  let whole := n / 512
  let rest := n % 512
  let flits := 5 * whole + (if rest = 0 then 0 else 1 + ceilDiv rest 128)
  (s.charge a 2 flits).charge a 3 (8 * whole + ceilDiv rest 64)

/-- Is a range within DRAM? -/
def inDram (a n : Nat) : Bool := a + n ≤ 0x6000000000

/-- Word i of a job. -/
def EngJob.w (j : EngJob) (i : Nat) : Word := (j.words[i]?).getD 0

/-- The op of a job. -/
def EngJob.op (j : EngJob) : Nat := fld (j.w 0) 127 124

/-- Lengths and addresses of a job: additional data (GCM and HMAC only), payload, source, destination, tag. -/
def EngJob.aadLen (j : EngJob) : Nat := if j.op = 3 then 0 else fld (j.w 2) 31 16
def EngJob.len (j : EngJob) : Nat := fld (j.w 3) 127 112
def EngJob.src (j : EngJob) : Nat := fld (j.w 2) 127 80
def EngJob.dst (j : EngJob) : Nat := fld (j.w 2) 79 32
def EngJob.tag (j : EngJob) : Nat := fld (j.w 3) 111 64

/-- The bytes of a tag or MAC. -/
def EngJob.tagLen (j : EngJob) : Nat := if j.op = 4 then 20 else if j.op = 3 then 0 else 16

/-- What stops a job before its first byte (R343): a bad op or length, an empty slot, a bad address. -/
def State.jobRefusal (s : State) (j : EngJob) (slotEmpty : Bool) : Option Nat :=
  if j.op = 0 ∨ j.op > 4 ∨ j.aadLen > 1024 ∨ j.words.length ≠ 4 then some 0x02
  else if slotEmpty then some 0x03
  else if !inDram j.src (j.aadLen + j.len) || (j.op != 4 && !inDram j.dst j.len) || !inDram j.tag j.tagLen ||
      (j.op != 4 && s.guarded j.dst && j.dst % 512 != 0) then some 0x04
  else none

/-- The payload as a job puts it out: encrypted or decrypted. -/
def EngJob.output (j : EngJob) (data : Bytes) : Bytes :=
  let key := if bit (j.w 0) 123 then j.key.take 32 else j.key.take 16
  let iv := nats (leBytes 16 (j.w 1).toNat)
  if j.op = 3 then ctrMode key 128 (ofBe iv) data else gcmStream key (iv.take 12) data

/-- The end of a job once its payload is through: its tag or MAC written, or compared (R343). -/
def State.jobTag (s : State) (j : EngJob) : Nat × State :=
  let aad := j.read.take j.aadLen
  let data := j.read.drop j.aadLen
  let key := if bit (j.w 0) 123 then j.key.take 32 else j.key.take 16
  let iv := nats ((leBytes 16 (j.w 1).toNat).take 12)
  match j.op with
  | 1 => (0x00, s.wr j.tag (ofNats (gcmTag key iv aad (j.output data))))
  | 2 => (if nats (s.rd j.tag 16) = gcmTag key iv aad data then 0x00 else 0x01, s)
  | 3 => (0x00, s)
  | _ => (0x00, s.wr j.tag (ofNats (hmacSha1 ((j.key.drop 32).take 20) j.read)))

/-- A job on engine `e` set. -/
def State.setEngJob (s : State) (e : Nat) (j : EngJob) : State := { s with sec := { s.sec with jobs := s.sec.jobs.put e j } }

/-- The next 512 bytes of a job, the additional data with the first (R343, R344): its source tiles verified, its bytes charged, its
output written; the failing tile's bytes and every later byte are not written. -/
def State.jobPiece (s : State) (e : Nat) (j : EngJob) : State :=
  let n := min 512 (j.len - j.done)
  let first := if j.done = 0 then j.src else j.src + j.aadLen + j.done
  let bytes := j.src + j.aadLen + j.done + n - first
  let tiles := if bytes = 0 then 0 else (first % 512 + bytes + 511) / 512
  let (s, bad) := s.verifyBy (.engine e) .mover tiles first
  if !bad.isEmpty then s.setEngJob e { j with result := some 0x05 } else
    let s := (s.chargeBytes j.account bytes).chargeBytes j.account (if j.op = 4 then 0 else n)
    let j := { j with read := j.read ++ nats (s.rd first bytes) }
    let out := (ofNats (j.output (j.read.drop j.aadLen))).drop j.done
    let s := if j.op = 4 ∨ n = 0 then s
      else if s.guarded j.dst then s.putTile (j.dst + j.done) (out ++ List.replicate (512 - n) 0)
      else s.wr (j.dst + j.done) out
    let j := { j with done := j.done + n }
    if j.done < j.len then s.setEngJob e j
    else
      let (r, s) := s.jobTag j
      (s.chargeBytes j.account j.tagLen).setEngJob e { j with result := some r }

/-- A job taken from job_q begins: refused, or its first bytes are processed. -/
def State.beginEngJob (s : State) (e : Nat) (ws : List Word) : State :=
  let j : EngJob := ⟨ws, s.get F.SEC_LOCK_account 0 e, [], [], 0, none⟩
  match s.jobRefusal j false with
  | some 0x02 => s.setEngJob e { j with result := some 0x02 }
  | _ =>
    let (m, s) := s.keyOf (e / 6) (fld (j.w 0) 122 107)
    let j := { j with key := m.getD [] }
    match s.jobRefusal j m.isNone with
    | some r => s.setEngJob e { j with result := some r }
    | none => s.jobPiece e j

/-- Engine `e` goes on with its job, or takes the next of its job_q, when the job's op is one of those asked for (R342-R344): no more
than 512 bytes, and nothing while the account is known to be exhausted. -/
def State.takeJob (s : State) (e : Nat) (p : Nat → Bool) : State :=
  match s.sec.jobs.get? e, s.sec.jobQ.get? e with
  | some j, _ => if j.result.isSome || !p j.op || s.knowsOut (.engine e) j.account then s else s.jobPiece e j
  | none, some q =>
    if s.knowsOut (.engine e) (s.get F.SEC_LOCK_account 0 e) then s else
      match s.popItem q with
      | some (ws, s1) => if p (fld ((ws[0]?).getD 0) 127 124) then s1.beginEngJob e ws else s
      | none => s
  | none, none => s

/-- The job in progress on engine `e` completes with its done item (R343). -/
def State.jobComplete (s : State) (e : Nat) : State :=
  match s.sec.jobs.get? e with
  | none => s
  | some j =>
    match j.result with
    | none => s
    | some r =>
      let s := { s with sec := { s.sec with jobs := s.sec.jobs.del e } }
      s.pushItem (.engine e) (fld (j.w 0) 106 87) [s.stampWord (BitVec.ofNat 128 (r * 2 ^ 56 + fld (j.w 0) 31 0 * 2 ^ 24))]

/-! ### Entropy (R346) -/

/-- A reseed falls due, every 1 ms. -/
def State.reseed (s : State) (healthy : Bool) : State :=
  if healthy then
    let s := { s with sec := { s.sec with reseedAt := s.upNs, rngFail := false } }
    (s.put F.SEC_STATUS_rng_ok 1).put F.SEC_STATUS_rng_stale 0
  else
    let s1 := s.put F.SEC_STATUS_rng_ok 0
    if s.sec.rngFail then s1 else
      let s1 := { s1 with sec := { s1.sec with rngFail := true } }
      s1.logEv 0x0E10 6 0 6 (snapOf (s1.reg .SEC_STATUS) ++ snapOf (s1.reg .SEC_CNT))

/-- SEC_STATUS as it reads: ALARM_N is low while any bit of SEC_ALARM_STAT is 1 (R350). -/
def State.secStatusView (s : State) : Reg64 :=
  putFld (s.reg .SEC_STATUS) 60 60 (bnat (s.get F.SEC_ALARM_STAT_src != 0))

/-! ### Alarms (R347-R350) -/

/-- The tiles of a job's guarded dst that it has begun, poisoned: those written and, while it goes on, the next (R349). -/
def State.poisonJob (s : State) (j : EngJob) : State :=
  if j.op = 4 ∨ !s.guarded j.dst ∨ (s.jobRefusal j false).isSome then s
  else (List.range (min (ceilDiv j.len 512) (ceilDiv j.done 512 + bnat j.result.isNone))).foldl (fun s i => s.poison (j.dst + 512 * i)) s

/-- Every key erased, new wrapping keys drawn, work in progress ended (R348, R349). -/
def State.eraseKeys (s : State) : State :=
  let s := s.zeroStaging
  let s := match s.sec.keyCmd with
    | none => s
    | some c => ({ s with sec := { s.sec with keyCmd := none } }).keyReport c.ticket 4
  let s := s.sec.jobs.foldl (fun s e => s.poisonJob e.2) s
  { s with sec := { s.sec with
      epoch := s.sec.epoch + 1, gen := 0, caches := [],
      jobs := s.sec.jobs.map (fun e : Nat × EngJob => (e.1, { e.2 with result := some 0x06 })) } }

/-- An alarm source detects its condition (R347, R348); bit 3 exists on DZ7128-S00 only. -/
def State.alarm (s : State) (bit : Nat) : State :=
  if bit > 3 ∨ (bit = 3 ∧ Config.secured = false) ∨ (s.get F.SEC_ALARM_EN_en).testBit bit = false then s else
    let s := s.eraseKeys
    let s := { s with sec := { s.sec with conds := s.sec.conds ||| 2 ^ bit } }
    let s := (s.put F.SEC_ALARM_STAT_src (s.get F.SEC_ALARM_STAT_src ||| 2 ^ bit)).count F.SEC_CNT_alarms
    s.logEv (0x0E00 + bit) 6 0 7 (snapOf (s.reg .SEC_ALARM_STAT) ++ snapOf s.secStatusView)

/-- The write of SEC_ALARM_STAT: a bit whose source is still active stays set (R350). -/
def State.wrAlarmStat (s : State) (v : Reg64) : State :=
  let old := s.get F.SEC_ALARM_STAT_src
  s.put F.SEC_ALARM_STAT_src (old &&& ((15 - fld v 3 0) ||| s.sec.conds))

/-- The write of SEC_ALARM_EN: on DZ7128-S00 a written 0 is ignored (R347). -/
def State.wrAlarmEn (s : State) (v : Reg64) : State :=
  s.put F.SEC_ALARM_EN_en (if Config.secured then s.get F.SEC_ALARM_EN_en ||| fld v 3 0 else fld v 3 0)

/-- Is ingress and egress off in all 16 link groups (R90, R117)? -/
def State.forwarderOff (s : State) : Bool :=
  (List.range 16).all (fun g => !s.flag F.LNK_ING_CTRL_en g && !s.flag F.LNK_EGR_CTRL_en g)

/-- The write of SEC_KEY_BASE (R352): only under the conditions of R117. -/
def State.wrKeyBase (s : State) (v : Reg64) : State :=
  if s.forwarderOff then s.put F.SEC_KEY_BASE_base (fld v 47 20) else s

/-- A read of SEC_RNG: fresh output, or zero while rng_stale, which counts where the read has side effects (R346). -/
def State.readRng (s : State) (effects : Bool) : Reg64 × State :=
  if s.flag F.SEC_STATUS_rng_stale then (0, if effects then s.count F.SEC_CNT_rng_zero else s)
  else let (n, s) := s.fresh; (BitVec.ofNat 64 n, s)

end Sys2Proof.Machine
end

