-- ==== Sys2Proof/Machine/Srtp.lean ====
section
/-! DEFINITION. SRTP and SRTCP at the link groups (03 R78-R80, 04 R105; RFC 3711, RFC 7714): packet indexes, replay
windows, authentication and ciphers over a crypto context in memory. -/
namespace Sys2Proof.Machine

/-- The value of a crypto_ctx or tx_ctx field that means none. -/
def noCtx : Nat := 0xFFFFF

/-- The address of a crypto context (R80). -/
def State.ctxAddr (s : State) (c : Nat) : Nat := s.get F.LNK_CRYPTO_BASE_base * 2 ^ 20 + 64 * c

/-- A packet index estimated from the rollover counter and the highest sequence number (R79; RFC 3711 appendix A). -/
def estimateIndex (roc sl seq : Nat) : Nat :=
  let v := if sl < 32768 then (if seq > sl + 32768 then roc + 2 ^ 32 - 1 else roc)
    else (if sl > seq + 32768 then roc + 1 else roc)
  v % 2 ^ 32 * 65536 + seq

/-- Does a replay window of `n` packets, whose bit 0 is `top`, refuse index `i`? -/
def replayed (n top window i : Nat) : Bool :=
  i ≤ top && (decide (top - i ≥ n) || window.testBit (top - i))

/-- The window and its top after index `i` is accepted. -/
def windowAfter (n top window i : Nat) : Nat × Nat :=
  if i > top then (i, (window * 2 ^ min n (i - top) + 1) % 2 ^ n)
  else (top, if window.testBit (top - i) then window else window + 2 ^ (top - i))

/-- Tag length of a suite, in bytes (R78). -/
def tagLen (suite : Nat) : Nat :=
  if suite = 1 then 10 else if suite = 2 then 4 else 16

/-- The cipher key of a suite from key material (14 R337). -/
def cipherKey (suite : Nat) (m : Bytes) : Bytes := if suite = 4 then m.take 32 else m.take 16

/-- The initial counter block of AES-CM (RFC 3711 4.1.1). -/
def cmIv (m : Bytes) (ssrc index : Nat) : Nat :=
  (ofBe ((m.drop 52).take 14) * 2 ^ 16) ^^^ (ssrc * 2 ^ 64) ^^^ (index * 2 ^ 16)

/-- The GCM nonce of an SRTP packet (RFC 7714 8.1) or an SRTCP packet (9.1). -/
def gcmIv (m : Bytes) (ssrc low : Nat) : Bytes :=
  beNats 12 (ofBe ((m.drop 52).take 12) ^^^ (ssrc * 2 ^ 48 + low))

/-- The cipher of a suite over a payload, with `low` the index as its nonce takes it. -/
def srtpCipher (suite : Nat) (m : Bytes) (ssrc index : Nat) (data : Bytes) : Bytes :=
  if suite ≤ 2 then ctrMode (cipherKey suite m) 128 (cmIv m ssrc index) data
  else gcmStream (cipherKey suite m) (gcmIv m ssrc index) data

/-- The authentication tag: HMAC over packet and rollover counter, or GCM's tag over ciphertext and additional data. -/
def srtpTag (suite : Nat) (m : Bytes) (ssrc index : Nat) (head ct trailer : Bytes) : Bytes :=
  if suite ≤ 2 then (hmacSha1 ((m.drop 32).take 20) (head ++ ct ++ trailer)).take (tagLen suite)
  else gcmTag (cipherKey suite m) (gcmIv m ssrc index) head ct

/-- How stage 6 ends for a packet. -/
inductive Srtp where
  | ok (packet : List Byte)
  | replay
  | authFail (keyEmpty : Bool)
  deriving DecidableEq, Repr

/-- A counter of word 3 of a context raised, wrapping. -/
def State.ctxCount (s : State) (c hi lo : Nat) : State :=
  let a := s.ctxAddr c + 48
  s.putWord a hi lo (fld (s.word a) hi lo + 1)

/-- A packet that fails authentication whatever its content; an empty key slot counts as well (R63, R80; 14 R340). -/
def State.failsAuth (s : State) (lg slot : Nat) : Srtp × State :=
  let (k, s) := s.keyOf lg slot
  (.authFail k.isNone, s)

/-- Stage 6 on an SRTP packet under context `c` (R79). -/
def State.srtpIn (s : State) (lg c : Nat) (p : List Byte) : Srtp × State :=
  let a := s.ctxAddr c
  let w0 := s.word a
  let suite := fld w0 127 120
  if suite = 0 ∨ suite > 4 then s.failsAuth lg (fld w0 111 96) else
    let seq := netAt p 2 2
    let ssrc := netAt p 8 4
    let top := fld w0 63 16
    let i := estimateIndex (fld w0 63 32) (fld w0 31 16) seq
    let win := (s.word (a + 16)).toNat
    if replayed 128 top win i then (.replay, s) else
      match s.keyOf lg (fld w0 111 96) with
      | (none, s) => (.authFail true, s)
      | (some m, s) =>
        let n := rtpHeader p
        let t := tagLen suite
        if p.length < n + t then (.authFail false, s) else
          let head := nats (p.take n)
          let ct := nats (slice p n (p.length - n - t))
          let tag := nats (p.drop (p.length - t))
          if tag ≠ srtpTag suite m ssrc i head ct (beNats 4 (i / 65536)) then (.authFail false, s) else
            let (top, win) := windowAfter 128 top win i
            let s := (s.putWord a 63 16 top).setWord (a + 16) (BitVec.ofNat 128 win)
            (.ok (p.take n ++ ofNats (srtpCipher suite m ssrc i ct)), s)

/-- Stage 6 on an SRTCP packet under context `c` (R79): its explicit index, a window of 64. -/
def State.srtcpIn (s : State) (lg c : Nat) (p : List Byte) : Srtp × State :=
  let a := s.ctxAddr c
  let w0 := s.word a
  let w2 := s.word (a + 32)
  let suite := fld w0 127 120
  let t := tagLen suite
  if suite = 0 ∨ suite > 4 ∨ p.length < 12 + t then s.failsAuth lg (fld w0 111 96) else
    let body := p.length - 4 - t
    let at' := if suite ≤ 2 then body else p.length - 4
    let trailer := slice p at' 4
    let i := beNat trailer % 2 ^ 31
    let enc := beNat trailer / 2 ^ 31 == 1
    let ssrc := netAt p 4 4
    if replayed 64 (fld w2 127 97) (fld w2 63 0) i then (.replay, s) else
      match s.keyOf lg (fld w0 111 96) with
      | (none, s) => (.authFail true, s)
      | (some m, s) =>
        let head := nats (p.take 8)
        let ct := nats (slice p 8 (body - 8))
        let tag := if suite ≤ 2 then nats (p.drop (p.length - t)) else nats (slice p body t)
        let want := if suite ≤ 2 then srtpTag suite m ssrc i head ct (nats trailer)
          else if enc then gcmTag (cipherKey suite m) (gcmIv m ssrc i) (head ++ nats trailer) ct
          else gcmTag (cipherKey suite m) (gcmIv m ssrc i) (head ++ ct ++ nats trailer) []
        if tag ≠ want then (.authFail false, s) else
          let (top, win) := windowAfter 64 (fld w2 127 97) (fld w2 63 0) i
          let s := (s.putWord (a + 32) 127 97 top).putWord (a + 32) 63 0 win
          (.ok (p.take 8 ++ (if enc then ofNats (srtpCipher suite m ssrc i ct) else ofNats ct)), s)

/-- A packet that leaves encrypted under transmit context `c` (04 R105); none where no key or suite serves it. -/
def State.srtpOut (s : State) (lg c : Nat) (p : List Byte) : Option (List Byte) × State :=
  let a := s.ctxAddr c
  let w0 := s.word a
  let suite := fld w0 127 120
  if suite = 0 ∨ suite > 4 then (none, s.ctxCount c 127 96) else
    match s.keyOf lg (fld w0 111 96) with
    | (none, s) => (none, s.count F.SEC_CNT_key_empty)
    | (some m, s) =>
      let ssrc := netAt p 8 4
      let i := estimateIndex (fld w0 63 32) (fld w0 31 16) (netAt p 2 2)
      let n := rtpHeader p
      let head := nats (p.take n)
      let ct := srtpCipher suite m ssrc i (nats (p.drop n))
      let tag := srtpTag suite m ssrc i head ct (beNats 4 (i / 65536))
      let s := if i > fld w0 63 16 then s.putWord a 63 16 i else s
      (some (p.take n ++ ofNats (ct ++ tag)), s)

end Sys2Proof.Machine
end

