-- ==== Sys2Proof/Machine/IngressOps.lean ====
section
/-! DEFINITION. Ingress (03; 12 R294-R296, R310): frames in the receive buffers, the pipeline from parse to hand-off, the
stream table and its commands, stop commands, policers, taps (05 R122, R123), and the LNK ingress registers' side effects. -/
namespace Sys2Proof.Machine

/-- A forwarder part of the state replaced. -/
def State.setFwd (s : State) (f : Forwarder) : State := { s with fwd := f }

/-! ### Stream records (R85, R87) -/

/-- The address of a stream record. -/
def State.recAddr (s : State) (i : Nat) : Nat := s.get F.LNK_STREAM_BASE_base * 2 ^ 20 + 128 * i

/-- Words 3 to 7 of a stream record as the owning link group holds them: cached, or read from memory. -/
def State.recWords (s : State) (i : Nat) : List Word := (s.fwd.recCache.get? i).getD (s.words (s.recAddr i + 48) 5)

/-- A field of word `w` (3 to 7) of a record. -/
def State.recGet (s : State) (i w hi lo : Nat) : Nat := fld (((s.recWords i)[w - 3]?).getD 0) hi lo

/-- A field of word `w` (3 to 7) of a cached record set. -/
def State.recPut (s : State) (i w hi lo n : Nat) : State :=
  let ws := s.recWords i
  s.setFwd { s.fwd with recCache := s.fwd.recCache.put i (setAt ws (w - 3) (putFld ((ws[w - 3]?).getD 0) hi lo n)) }

/-- A saturating count in a record. -/
def State.recCount (s : State) (i w hi lo : Nat) : State := s.recPut i w hi lo (satAdd (hi + 1 - lo) (s.recGet i w hi lo) 1)

/-- A wrapping count in a record. -/
def State.recBump (s : State) (i w hi lo : Nat) : State := s.recPut i w hi lo (s.recGet i w hi lo + 1)

/-- Words 4 to 7 of a cached record written back. -/
def State.writeBackRec (s : State) (i : Nat) : State :=
  match s.fwd.recCache.get? i with
  | none => s
  | some ws => s.setWords (s.recAddr i + 64) (ws.drop 1)

/-! ### Key table (R68, R69) -/

/-- A flow key: IP version 6, addresses, ports, SSRC. -/
structure FlowKey where
  ipv6 : Bool
  src : Nat
  dst : Nat
  sport : Nat
  dport : Nat
  ssrc : Nat
  deriving DecidableEq, Repr

/-- The 41 bytes a key is hashed from. -/
def FlowKey.bytes (k : FlowKey) : List Byte :=
  beBytes 16 k.src ++ beBytes 16 k.dst ++ beBytes 2 k.sport ++ beBytes 2 k.dport ++ beBytes 4 k.ssrc ++ beBytes 1 (if k.ipv6 then 6 else 4)

/-- A key's two buckets and tag. -/
def FlowKey.places (k : FlowKey) : Nat × Nat × Nat :=
  let a := crc32cSeed 0xFFFFFFFF k.bytes
  let b := crc32cSeed 0x5A5A5A5A k.bytes
  (a % 2 ^ 18, b % 2 ^ 18, a / 2 ^ 18 * 2 ^ 9 + b / 2 ^ 23)

/-- The address of slot `j` of a bucket. -/
def State.slotNo (s : State) (bucket j : Nat) : Nat := s.get F.LNK_KEY_BASE_base * 2 ^ 20 + 64 * bucket + 8 * j

/-- The eight slots of a bucket: address and content. -/
def State.bucketSlots (s : State) (bucket : Nat) : List (Nat × Nat) :=
  (List.range 8).map (fun j => (s.slotNo bucket j, leNat (s.rd (s.slotNo bucket j) 8)))

/-- Is a slot's content valid? -/
def slotValid (v : Nat) : Bool := v.testBit 63

/-- The key that words 0 to 2 of a record spell (R85). -/
def State.recKey (s : State) (i : Nat) : FlowKey :=
  let a := s.recAddr i
  let w2 := s.word (a + 32)
  ⟨bit w2 62, (s.word a).toNat, (s.word (a + 16)).toNat, fld w2 127 112, fld w2 111 96, fld w2 95 64⟩

/-- The slots of a key's two buckets. -/
def State.keySlots (s : State) (k : FlowKey) : List (Nat × Nat) :=
  let (b1, b2, _) := k.places
  s.bucketSlots b1 ++ s.bucketSlots b2

/-- The stream a key is confirmed for (R69). -/
def State.lookup (s : State) (k : FlowKey) : Option Nat :=
  let (_, _, tag) := k.places
  ((s.keySlots k).find? (fun e =>
    slotValid e.2 && e.2 / 2 ^ 40 % 2 ^ 23 == tag && s.recKey (e.2 % 2 ^ 20) == k)).map (fun e => e.2 % 2 ^ 20)

/-- The slot that names a stream, among those of its record's key. -/
def State.keySlotOf (s : State) (i : Nat) : Option Nat :=
  ((s.keySlots (s.recKey i)).find? (fun e => slotValid e.2 && e.2 % 2 ^ 20 == i)).map (·.1)

/-! ### Flow commands (R70-R72) -/

/-- Insert: the result, with its effect (R70). DESIGN CHOICE (log 90): 5 before 3. -/
def State.flowInsert (s : State) (i : Nat) : Nat × State :=
  let k := s.recKey i
  if bit (s.word (s.recAddr i + 32)) 63 = false then (5, s)
  else if (s.lookup k).isSome then (3, s)
  else
    let (b1, b2, tag) := k.places
    let n1 := ((s.bucketSlots b1).filter (fun e => slotValid e.2)).length
    let n2 := ((s.bucketSlots b2).filter (fun e => slotValid e.2)).length
    let b := if n2 < n1 then b2 else b1
    match (s.bucketSlots b).find? (fun e => !slotValid e.2) with
    | none => (2, s)
    | some (a, _) =>
      let s1 := s.wr a (leBytes 8 (2 ^ 63 + tag * 2 ^ 40 + i))
      (1, s1.setFwd { s1.fwd with
        recCache := s1.fwd.recCache.put i (s1.words (s1.recAddr i + 48) 5), layers := s1.fwd.layers.del i })

/-- Update: word 3 reloaded; a change of owner takes words 4 to 7 through memory (R72). -/
def State.flowUpdate (s : State) (i : Nat) : State :=
  let w3 := s.word (s.recAddr i + 48)
  if fld w3 11 8 = s.recGet i 3 11 8 then
    s.setFwd { s.fwd with recCache := s.fwd.recCache.put i (w3 :: (s.recWords i).drop 1) }
  else
    let s1 := s.writeBackRec i
    s1.setFwd { s1.fwd with recCache := s1.fwd.recCache.put i (s1.words (s1.recAddr i + 48) 5) }

/-- A flow command's result, with its effect. -/
def State.flowEffect (s : State) (op i : Nat) : Nat × State :=
  if op = 1 then s.flowInsert i
  else match s.keySlotOf i with
    | none => (4, s)
    | some a =>
      if op = 2 then
        let s1 := (s.writeBackRec i).wr a (leBytes 8 0)
        (1, s1.setFwd { s1.fwd with recCache := s1.fwd.recCache.del i, layers := s1.fwd.layers.del i })
      else if op = 3 then (1, s.flowUpdate i)
      else (1, s.writeBackRec i)

/-- A flow command reported. -/
def State.flowReport (s : State) (ticket result : Nat) : State :=
  (s.put F.LNK_FLOW_STAT_ticket ticket).put F.LNK_FLOW_STAT_result result

/-- The write of LNK_FLOW_CMD: queued, or refused (R70). DESIGN CHOICE (log 90): 7 before 6. -/
def State.wrFlowCmd (s : State) (v : Reg64) : State :=
  let t := fld v 59 52
  let op := fld v 63 60
  if op = 0 ∨ op > 4 then s.flowReport t 7
  else if s.fwd.flowQ.length ≥ 64 then s.flowReport t 6
  else s.setFwd { s.fwd with flowQ := s.fwd.flowQ ++ [⟨op, t, fld v 19 0, 0, 0, none⟩] }

/-- The commands of a queue served in order, those already served kept; `f` gives a command's result and effect. -/
def serveAll (f : State → Cmd → Nat × State) : State → List Cmd → State × List Cmd
  | s, [] => (s, [])
  | s, c :: cs =>
    match c.served with
    | some _ => let (s, r) := serveAll f s cs; (s, c :: r)
    | none =>
      let (n, s) := f s c
      let (s, r) := serveAll f s cs
      (s, { c with served := some n } :: r)

/-- The effects of every waiting flow command, in order; none while a stop command waits, which is served ahead (R74). -/
def State.serveFlow (s : State) : State :=
  if !s.fwd.stopQ.isEmpty then s else
  let (s1, l) := serveAll (fun s c => s.flowEffect c.op c.a) s s.fwd.flowQ
  s1.setFwd { s1.fwd with flowQ := l }

/-- The command at the head of the flow queue completes (R70), once no stop command waits ahead of one not yet served (R74). -/
def State.flowComplete (s : State) : State :=
  match s.fwd.flowQ with
  | [] => s
  | c :: rest =>
    if c.served.isNone && !s.fwd.stopQ.isEmpty then s else
    let (n, s1) := match c.served with
      | some n => (n, s)
      | none => s.flowEffect c.op c.a
    let s1 := s1.setFwd { s1.fwd with flowQ := rest }
    (s1.flowReport c.ticket n).bump F.LNK_FLOW_STAT_done

/-- Is ingress off in all 16 link groups (R90)? -/
def State.ingressOff (s : State) : Bool := (List.range 16).all (fun g => !s.flag F.LNK_ING_CTRL_en g)

/-- The write of a base register of ingress (R90) or, with `egress`, of egress (04 R117). -/
def State.wrFwdBase (s : State) (n : RegName) (egress : Bool) (v : Reg64) : State :=
  if (if egress then s.forwarderOff else s.ingressOff) then s.setReg n (codedWrite n.info (s.reg n) v)
  else s.put F.LNK_FLOW_STAT_result 7

/-! ### Stop commands (R73-R75, 04 R115) -/

/-- A stop command reported. -/
def State.stopReport (s : State) (ticket result : Nat) : State :=
  (s.put F.LNK_STOP_STAT_ticket ticket).put F.LNK_STOP_STAT_result result

/-- The write of LNK_STOP_CMD: queued, or refused (R75). DESIGN CHOICE (log 90): 2 before 3. -/
def State.wrStopCmd (s : State) (v : Reg64) : State :=
  let op := fld v 63 61
  let t := fld v 60 53
  let i := fld v 19 0
  if s.fwd.stopQ.length ≥ 64 then s.stopReport t 2
  else if op = 0 ∨ op > 4 ∨ (op ≤ 2 ∧ i ≥ 262144) then s.stopReport t 3
  else s.setFwd { s.fwd with stopQ := s.fwd.stopQ ++ [⟨op, t, i, [], []⟩] }

/-- The key of an entry that a link group keeps per index. -/
def lgKey (lg i : Nat) : Nat := lg * 2 ^ 20 + i

/-- The first command of a list that meets `p` changed by `f`. -/
def changeFirst {α : Type} (p : α → Bool) (f : α → α) : List α → List α
  | [] => []
  | a :: as => if p a then f a :: as else a :: changeFirst p f as

/-- A bit of a bitmap set or cleared. -/
def putBit (m : SMap Bool) (k : Nat) (b : Bool) : SMap Bool := if b then m.put k true else m.del k

/-- A link group applies the next stop command it has not applied (R74). -/
def State.stopApply (s : State) (lg : Nat) : State :=
  let p (c : StopCmd) : Bool := !c.applied.contains lg
  match s.fwd.stopQ.find? p with
  | none => s
  | some c =>
    let f := { s.fwd with stopQ := changeFirst p (fun (c : StopCmd) => { c with applied := c.applied ++ [lg] }) s.fwd.stopQ }
    let k := lgKey lg c.index
    s.setFwd (if c.op ≤ 2 then { f with legStop := putBit f.legStop k (c.op == 1) }
      else { f with streamBlock := putBit f.streamBlock k (c.op == 3) })

/-- One copy of a buffer is sent or dropped (04 R112). -/
def State.copyDone (s : State) (a : Nat) : State :=
  match s.fwd.bufs.get? a with
  | none => s
  | some b => s.setFwd { s.fwd with bufs := s.fwd.bufs.put a { b with copies := b.copies - 1 } }

/-- tw_seq and words 5 to 7 of a leg as its egress link group holds them. -/
def State.legWords (s : State) (l : Nat) : List Word :=
  (s.fwd.legCache.get? l).getD (putFld 0 63 48 (fld (s.word (s.legAddr l + 64)) 63 48) :: s.words (s.legAddr l + 80) 3)

/-- A field of tw_seq's word (4) or of words 5 to 7. -/
def State.legGet (s : State) (l w hi lo : Nat) : Nat := fld (((s.legWords l)[w - 4]?).getD 0) hi lo

/-- Such a field set. -/
def State.legPut (s : State) (l w hi lo n : Nat) : State :=
  let ws := s.legWords l
  s.setFwd { s.fwd with legCache := s.fwd.legCache.put l (setAt ws (w - 4) (putFld ((ws[w - 4]?).getD 0) hi lo n)) }

/-- The copies of a leg that wait at a link group discarded and counted (04 R115). -/
def State.sweepLeg (s : State) (lg l : Nat) : State :=
  let q := s.fwd.legQ.getD (lgKey lg l) []
  if q.isEmpty then s else
    let s := q.foldl (fun (s : State) (c : Copy) => s.copyDone c.buf) s
    let s := s.setFwd { s.fwd with legQ := s.fwd.legQ.del (lgKey lg l) }
    (s.legPut l 6 15 0 (satAdd 16 (s.legGet l 6 15 0) q.length)).count F.LNK_EGR_CNT_stop_drop q.length lg

/-- A link group has swept and acknowledges (R74). -/
def State.stopSwept (s : State) (lg : Nat) : State :=
  let p (c : StopCmd) : Bool := c.applied.contains lg && !c.acked.contains lg
  match s.fwd.stopQ.find? p with
  | none => s
  | some c =>
    let s := if c.op = 1 then s.sweepLeg lg c.index else s
    s.setFwd { s.fwd with stopQ := changeFirst p (fun (c : StopCmd) => { c with acked := c.acked ++ [lg] }) s.fwd.stopQ }

/-- The head stop command completes once all 16 acknowledgements are in (R74). -/
def State.stopComplete (s : State) : State :=
  match s.fwd.stopQ with
  | [] => s
  | c :: rest =>
    if c.acked.length < 16 then s else
      ((s.setFwd { s.fwd with stopQ := rest }).stopReport c.ticket 1).bump F.LNK_STOP_STAT_done

/-! ### Meters (R76, R77) -/

/-- Units of a bucket in one byte. -/
def perByte : Nat := 8000000

/-- A bucket full. -/
def Bucket.full (cbs pbs now : Nat) : Bucket := ⟨(cbs * perByte : Nat), (pbs * perByte : Nat), now⟩

/-- A bucket risen up to `now`. -/
def Bucket.rise (b : Bucket) (cir pir cbs pbs now : Nat) : Bucket :=
  let dt := now - b.last
  ⟨min (cbs * perByte : Nat) (b.tc + (cir * dt : Nat)), min (pbs * perByte : Nat) (b.tp + (pir * dt : Nat)), now⟩

/-- The colour of a DSCP (R77): 3 is green. -/
def State.dscpColour (s : State) (lg dscp : Nat) : Nat :=
  let c := fld (s.reg .LNK_DSCP_COLOUR lg (dscp / 32)) (2 * (dscp % 32) + 1) (2 * (dscp % 32))
  if c = 3 then 0 else c

/-- A policer's verdict on `n` bytes: colour, and the bucket after (R77). -/
def meter (b : Bucket) (aware : Bool) (pre : Nat) (n : Int) : Nat × Bucket :=
  let z : Int := n * perByte
  if aware ∧ pre = 2 then (2, b)
  else if b.tp < z then (2, b)
  else if (aware ∧ pre = 1) ∨ b.tc < z then (1, { b with tp := b.tp - z })
  else (0, { b with tp := b.tp - z, tc := b.tc - z })

/-- The key of a policer. -/
def polKey (lg i : Nat) : Nat := lg * 65536 + i

/-- The length of a frame of `n` bytes without FCS as a shaper or policer charges it (R76, 04 R110). -/
def charged (n overhead : Nat) : Int := (n : Int) + 4 + signed 8 overhead

/-- Stage 5 on a frame (R76, R77): its colour. -/
def State.police (s : State) (lg stream dscp n : Nat) : Nat × State :=
  let w2 := s.word (s.recAddr stream + 32)
  let i := fld w2 55 40
  if i = 0xFFFF ∨ s.flag F.LNK_POL_CFG0_en lg i = false then (0, s) else
    let cbs := s.get F.LNK_POL_CFG1_cbs lg i
    let pbs := s.get F.LNK_POL_CFG1_pbs lg i
    let b := ((s.fwd.policers.get? (polKey lg i)).getD (Bucket.full cbs pbs s.upNs)).rise
      (s.get F.LNK_POL_CFG0_cir lg i) (s.get F.LNK_POL_CFG0_pir lg i) cbs pbs s.upNs
    let (c, b) := meter b (bit w2 58) (s.dscpColour lg dscp) (max 1 (charged n (s.get F.LNK_ING_CTRL_overhead lg)))
    (c, s.setFwd { s.fwd with policers := s.fwd.policers.put (polKey lg i) b })

/-- The write of a policer's configuration register: both buckets full (R77). -/
def State.wrPolicer (s : State) (n : RegName) (lg i : Nat) (v : Reg64) : State :=
  let s := s.setReg n (codedWrite n.info (s.reg n lg i) v) lg i
  let b := Bucket.full (s.get F.LNK_POL_CFG1_cbs lg i) (s.get F.LNK_POL_CFG1_pbs lg i) s.upNs
  s.setFwd { s.fwd with policers := s.fwd.policers.put (polKey lg i) b }

/-! ### Buffers (R66, 04 R112) -/

/-- `n` bytes that the spec leaves open (log 4). -/
def State.filler (s : State) (n : Nat) : List Byte × State :=
  if n = 0 then ([], s) else let (x, s) := s.fresh; (leBytes n x, s)

/-- Bytes written to whole tiles of a buffer. -/
def State.writeBuf (s : State) (a : Nat) (b : List Byte) : State :=
  let (z, s) := s.filler (ceilDiv b.length 512 * 512 - b.length)
  s.putTiles a (tilesOf (b.length / 512 + 2) (b ++ z))

/-- Does a buffer lie in guarded memory of a link group's quadrant (01 R34), for a frame of the most tiles (R66)? -/
def State.bufPlaced (s : State) (lg a : Nat) : Bool :=
  (List.range 18).all (fun k =>
    s.guarded (a + 512 * k) && ((s.tilePlace (a + 512 * k)).map (fun e => e.1 / 64 == lg / 4)).getD false)

/-- A buffer of the pool of a link group: the first that lies in guarded memory of the quadrant (01 R34). -/
def State.takeBuf (s : State) (lg : Nat) : Option (Nat × State) :=
  let l := s.fwd.pool.getD lg []
  match l.find? (s.bufPlaced lg) with
  | none => none
  | some a => some (a, s.setFwd { s.fwd with pool := s.fwd.pool.put lg (l.erase a) })

/-- A buffer back in the pool of its link group. -/
def State.poolBack (s : State) (lg a : Nat) : State :=
  s.setFwd { s.fwd with pool := s.fwd.pool.put lg (s.fwd.pool.getD lg [] ++ [a]), bufs := s.fwd.bufs.del a }

/-- The write of LNK_BUF_RET (R66). -/
def State.bufRet (s : State) (lg a : Nat) : State :=
  match s.fwd.bufs.get? a with
  | some b => if b.prog && b.lg == lg then s.poolBack lg a else s
  | none => s

/-- The words of a list of bytes, the first in the low byte of the first word (00 R6). -/
def wordsOf : Nat → List Byte → List Word
  | 0, _ => []
  | n + 1, b => BitVec.ofNat 128 (leNat (b.take 16)) :: wordsOf n (b.drop 16)

/-- An exception or RTCP frame written and handed over (R66). -/
def State.handFrame (s : State) (lg reason stream : Nat) (f : RxFrame) (q : Nat) : State :=
  match s.takeBuf lg with
  | none => s.count F.LNK_ING_CNT_buf_empty 1 lg
  | some (a, s) =>
    let s := s.writeBuf a f.bytes
    let n := f.bytes.length
    let b : Buf := ⟨lg, f.arrivalUp, f.arrival, n, ceilDiv n 512, 0, false, true, none⟩
    let s := s.setFwd { s.fwd with bufs := s.fwd.bufs.put a b }
    let w0 : Word := BitVec.ofNat 128 (f.arrival * 2 ^ 64 + n * 2 ^ 48 + reason * 2 ^ 40 + f.port * 2 ^ 35 + lg * 2 ^ 31 + stream)
    let (z, s) := s.filler (96 - n)
    s.pushItem (.lg lg) q ([w0, BitVec.ofNat 128 a] ++ wordsOf 6 (f.bytes.take 96 ++ z))

/-- An exception (R65, R67). -/
def State.exception (s : State) (lg reason stream : Nat) (f : RxFrame) : State :=
  let burst := s.get F.LNK_EXC_QUEUE_burst lg reason * 10 ^ 6
  let (t, at0) := (s.fwd.excTokens.get? (16 * lg + reason)).getD (burst, s.upNs)
  let t := min burst (t + s.get F.LNK_EXC_QUEUE_rate lg reason * (s.upNs - at0))
  if s.flag F.LNK_EXC_QUEUE_en lg reason && decide (t ≥ 10 ^ 6) then
    (s.setFwd { s.fwd with excTokens := s.fwd.excTokens.put (16 * lg + reason) (t - 10 ^ 6, s.upNs) }).handFrame lg reason stream f
      (s.get F.LNK_EXC_QUEUE_queue lg reason)
  else
    (s.setFwd { s.fwd with excTokens := s.fwd.excTokens.put (16 * lg + reason) (t, s.upNs) }).count F.LNK_ING_CNT_exc_drop 1 lg

/-- The write of LNK_EXC_QUEUE: the bucket is full at its next use (log 10). -/
def State.wrExcQueue (s : State) (lg r : Nat) (v : Reg64) : State :=
  let s := s.setReg .LNK_EXC_QUEUE (codedWrite RegName.LNK_EXC_QUEUE.info (s.reg .LNK_EXC_QUEUE lg r) v) lg r
  s.setFwd { s.fwd with excTokens := s.fwd.excTokens.del (16 * lg + r) }

/-! ### Layer identification (R81-R84) -/

/-- The address of a template map (R87). -/
def State.tmapAddr (s : State) (stream : Nat) : Nat := s.get F.LNK_TMAP_BASE_base * 2 ^ 20 + 1024 * s.recGet stream 3 81 66

/-- A template structure rewrites both tiles of the map; dt_nt is the program's (R82, R87). -/
def State.putTmap (s : State) (a : Nat) (off dts : Nat) (ts : List Nat) : State :=
  let nt := fld (s.word a) 108 105
  let head := off * 2 ^ 122 + ts.length * 2 ^ 115 + dts * 2 ^ 109 + nt * 2 ^ 105 + 2 ^ 104
  let body := (List.range 63).map (fun k => BitVec.ofNat 128 (if k < 32 then (ts[2 * k]?).getD 0 + (ts[2 * k + 1]?).getD 0 * 2 ^ 64 else 0))
  s.setWords a (BitVec.ofNat 128 head :: body)

/-- What stage 7 finds: sof, eof, key, sw_up, s, t, layer_valid. -/
structure Layer where
  sof : Bool
  eof : Bool
  key : Bool
  sw : Bool
  s : Nat
  t : Nat
  valid : Bool
  prefixT : Option Nat
  deriving DecidableEq, Repr

/-- What is found of a packet without an identifying header: layers of the previous packet at the timestamp (R84). DESIGN CHOICE
(log 96): sof and eof 0. -/
def Layer.copied (old : List LayerMem) (ts : Nat) : Layer :=
  let m := old.find? (fun m => m.ts == ts)
  ⟨false, false, false, false, (m.map (·.s)).getD 0, (m.map (·.t)).getD 0, false, none⟩

/-- The dependency descriptor's layers (R82). -/
def State.av1Layer (s : State) (stream : Nat) (old : List LayerMem) (p : List Byte) (ts : Nat) : Layer × State :=
  match findExt p (s.recGet stream 3 109 102) with
  | none => (Layer.copied old ts, s)
  | some d =>
    if d.length < 3 then (Layer.copied old ts, s) else
      let a := s.tmapAddr stream
      let sof := bitsAt d 0 1 == 1
      let eof := bitsAt d 1 1 == 1
      let st := ddStructure d
      let s := match st with
        | some (off, dts, l) => s.putTmap a off dts l
        | none => s
      let h := s.word a
      let key := st.isSome && sof
      let j := (bitsAt d 2 6 + 64 - fld h 127 122) % 64
      if bit h 104 = false ∨ j ≥ fld h 121 115 then ({ (Layer.copied old ts) with sof := sof, eof := eof, key := key, sw := key }, s)
      else
        let w := fld (s.word (a + 16 * (1 + j / 2))) (64 * (j % 2) + 63) (64 * (j % 2))
        let sp := w / 8 % 4
        let t := w % 8
        let dt := sp * fld h 108 105 + t
        let sw := key || (decide (dt < fld h 114 109) && (w / 32).testBit dt)
        (⟨sof, eof, key, sw, sp, t, true, none⟩, s)

/-- A packet begins a picture (R83): the packet held that comes latest before it in sequence has another timestamp; the first packet
of a stream begins one (DESIGN CHOICE, log 45). -/
def pictureStart (old : List LayerMem) (seq ts : Nat) : Bool :=
  let back (m : LayerMem) : Nat := (seq + 65536 - m.seq) % 65536
  let before := old.filter (fun m => decide (0 < back m ∧ back m < 32768))
  match before.foldl (fun (b : Option LayerMem) m => match b with
    | none => some m
    | some x => if back m < back x then some m else some x) none with
  | some m => m.ts != ts
  | none => old.isEmpty

/-- The layers of a NAL header (R83, R84). -/
def nalLayer (old : List LayerMem) (n : NalInfo) (seq ts : Nat) (marker t0 h264 : Bool) : Layer :=
  let c := Layer.copied old ts
  let t := match n.t with
    | some t => t
    | none => ((old.find? (fun m => m.ts == ts && m.prefixT.isSome)).bind (·.prefixT)).getD 0
  let s := if n.valid then n.s else c.s
  let t := if n.valid then t else c.t
  ⟨pictureStart old seq ts, marker, n.key, n.sw || (h264 && t0 && t == 0), s, t, n.valid, n.prefixT⟩

/-- The payload of an RTP packet, without padding. -/
def rtpPayload (p : List Byte) : List Byte :=
  let b := p.drop (rtpHeader p)
  if bAt p 0 / 32 % 2 = 1 then b.take (b.length - bAt b (b.length - 1)) else b

/-- Packets that layer identification remembers (log 45). -/
def layerDepth : Nat := 256

/-- Stage 7 (R81-R84): the packet word of an RTP packet of `n` bytes as a frame, FCS not counted (DEDUCED, log 42). DESIGN CHOICE
(log 96): layer_valid 1 for layer_src audio. -/
def State.identify (s : State) (stream colour arrival n : Nat) (p : List Byte) : Word × State :=
  let w2 := s.word (s.recAddr stream + 32)
  let old := s.fwd.layers.getD stream []
  let seq := netAt p 2 2
  let ts := netAt p 4 4
  let marker := bAt p 1 ≥ 128
  let (y, s) := match fld w2 61 59 with
    | 1 => s.av1Layer stream old p ts
    | 2 => (nalLayer old (h264Info (rtpPayload p)) seq ts marker (bit w2 57) true, s)
    | 3 => (nalLayer old (h265Info (rtpPayload p)) seq ts marker false false, s)
    | 4 => (⟨true, true, false, false, 0, 0, true, none⟩, s)
    | _ => (Layer.copied old ts, s)
  let lvl := match findExt p (s.recGet stream 3 101 94) with
    | some (b :: _) => b.toNat
    | _ => 0
  let s := s.setFwd { s.fwd with layers := s.fwd.layers.put stream ((⟨seq, ts, y.s, y.t, y.prefixT⟩ :: old).take layerDepth) }
  (BitVec.ofNat 128 (arrival * 2 ^ 64 + stream * 2 ^ 44 + n * 2 ^ 30 + colour * 2 ^ 28 + bnat marker * 2 ^ 27 + bnat y.sof * 2 ^ 26 +
    bnat y.eof * 2 ^ 25 + bnat y.key * 2 ^ 24 + bnat y.sw * 2 ^ 23 + y.s % 8 * 2 ^ 20 + y.t % 8 * 2 ^ 17 + bnat y.valid * 2 ^ 16 +
    lvl * 2 ^ 8), s)

/-! ### The record (R85, R86, R88) -/

/-- The RTP clock of a record (R85). -/
def clockHz (c : Nat) : Nat :=
  match c with
  | 1 => 48000 | 2 => 32000 | 3 => 16000 | 4 => 8000 | _ => 90000

/-- The sequence state of R86. -/
structure SeqState where
  maxSeq : Nat
  baseSeq : Nat
  received : Nat
  reorder : Nat
  resync : Nat
  jitter : Nat
  lastTransit : Nat
  deriving DecidableEq, Repr

/-- The update of R86; `mtime` is the packet's arrival. -/
def SeqState.update (x : SeqState) (seq rtpTs mtime hz : Nat) : SeqState :=
  let y :=
    if x.received = 0 then { x with baseSeq := seq, maxSeq := seq }
    else
      let delta := (seq + 2 ^ 32 - x.maxSeq) % 2 ^ 16
      if delta = 0 ∨ delta ≥ 65436 then { x with reorder := satAdd 16 x.reorder 1 }
      else if delta < 3000 then
        let arrival := mtime * hz / 10 ^ 9 % 2 ^ 32
        let transit := (arrival + 2 ^ 32 - rtpTs) % 2 ^ 32
        let d := (signed 32 (transit + 2 ^ 32 - x.lastTransit)).natAbs
        { x with maxSeq := (x.maxSeq + delta) % 2 ^ 32,
                 jitter := (x.jitter + d + 2 ^ 32 - (x.jitter + 8) / 16) % 2 ^ 32,
                 lastTransit := transit }
      else { x with baseSeq := seq, maxSeq := seq, received := 0, resync := satAdd 16 x.resync 1 }
  { y with received := (y.received + 1) % 2 ^ 32 }

/-- The sequence state in words 4 and 5 of a record. -/
def State.seqState (s : State) (i : Nat) : SeqState :=
  ⟨s.recGet i 4 127 96, s.recGet i 4 95 64, s.recGet i 4 63 32, s.recGet i 4 31 16, s.recGet i 4 15 0, s.recGet i 5 127 96, s.recGet i 5 95 64⟩

/-- Words 4 and 5 of a record from the sequence state and the arrival. -/
def State.putSeqState (s : State) (i : Nat) (x : SeqState) (arrival : Nat) : State :=
  let w4 : Word := BitVec.ofNat 128 (x.maxSeq * 2 ^ 96 + x.baseSeq * 2 ^ 64 + x.received * 2 ^ 32 + x.reorder * 2 ^ 16 + x.resync)
  let w5 : Word := BitVec.ofNat 128 (x.jitter * 2 ^ 96 + x.lastTransit * 2 ^ 64 + arrival)
  let ws := s.recWords i
  s.setFwd { s.fwd with recCache := s.fwd.recCache.put i (setAt (setAt ws 1 w4) 2 w5) }

/-- Stage 8 (R85, R86, R88) for an RTP packet with its packet word. -/
def State.record (s : State) (lg i : Nat) (pw : Word) (p : List Byte) : State :=
  let seq := netAt p 2 2
  let arrival := fld pw 127 64
  let x := (s.seqState i).update seq (netAt p 4 4) arrival (clockHz (s.recGet i 3 85 82))
  let s := s.putSeqState i x arrival
  let ext := (x.maxSeq + 2 ^ 32 - (x.maxSeq + 2 ^ 16 - seq) % 2 ^ 16) % 2 ^ 32
  let s := if bit pw 24 && bit pw 26 then (s.recPut i 6 127 96 ext).recPut i 6 95 64 (netAt p 4 4) else s
  let s := if bit pw 23 && bit pw 26 then ((s.recPut i 6 63 32 ext).recPut i 6 31 28 (fld pw 22 20)).recPut i 6 27 24 (fld pw 19 17) else s
  let s := (s.recPut i 6 23 16 (fld pw 22 20 * 16 + fld pw 19 17)).recPut i 6 15 8 (fld pw 15 8)
  match findExt p (s.recGet i 3 93 86) with
  | some (a :: b :: _) =>
    s.pushItem (.lg lg) (s.recGet i 3 31 12) [BitVec.ofNat 128 (arrival * 2 ^ 64 + (a.toNat * 256 + b.toNat) * 2 ^ 48 + i * 2 ^ 28 +
      fld pw 43 30 * 2 ^ 14 + fld pw 29 28 * 2 ^ 12)]
  | _ => s

/-! ### Hand-off: merge (12 R310), tap (05 R122, R123), walk -/

/-- The entry that merges a stream at a link group, and its primary. -/
def State.mergeOf (s : State) (lg stream : Nat) : Option (Nat × Nat) :=
  ((List.range 256).find? (fun m => s.flag F.LNK_MRG_en lg m &&
    (s.get F.LNK_MRG_primary lg m == stream || s.get F.LNK_MRG_secondary lg m == stream))).map (fun m => (m, s.get F.LNK_MRG_primary lg m))

/-- A merge entry's judgement of a sequence number: 0 accept, 1 duplicate, 2 late (R310). -/
def Merge.judge (e : Merge) (seq : Nat) : Nat × Merge :=
  if e.init = false then (0, ⟨true, seq, [seq]⟩) else
    let delta := (seq + 65536 - e.max) % 65536
    if delta = 0 ∨ delta ≥ 64512 then (if e.seen.contains seq then (1, e) else (0, { e with seen := e.seen ++ [seq] }))
    else if delta < 32768 then (0, ⟨true, seq, e.seen.filter (fun q => decide ((seq + 65536 - q) % 65536 < 1024)) ++ [seq]⟩)
    else (2, e)

/-- The write of LNK_MRG: an enabling write sets init to 0. -/
def State.wrMerge (s : State) (lg m : Nat) (v : Reg64) : State :=
  let s := s.setReg .LNK_MRG (codedWrite RegName.LNK_MRG.info (s.reg .LNK_MRG lg m) v) lg m
  if bit v 63 then { s with ports := { s.ports with merges := s.ports.merges.put (256 * lg + m) ⟨false, 0, []⟩ } } else s

/-- The merge judges a packet: accepted with the stream it goes on as, or not. -/
def State.merge (s : State) (lg stream seq : Nat) : Option Nat × State :=
  match s.mergeOf lg stream with
  | none => (some stream, s)
  | some (m, primary) =>
    let (j, e) := ((s.ports.merges.get? (256 * lg + m)).getD ⟨false, 0, []⟩).judge seq
    let s := { s with ports := { s.ports with merges := s.ports.merges.put (256 * lg + m) e } }
    if j = 0 then (some primary, s)
    else if j = 1 then (none, s.count F.LNK_MRG_CNT_dup 1 lg m)
    else (none, s.count F.LNK_MRG_CNT_late 1 lg m)

/-- A tap feeds a packet (05 R122, R123): the item's queue is marked as a feed, whose items hold their buffers. -/
def State.tap (s : State) (lg : Nat) (pw : Word) (buf : Nat) : State :=
  let e := leNat (s.rd (s.get F.VCC_TAP_BASE_base * 2 ^ 20 + 8 * fld pw 63 44) 8)
  if e.testBit 63 && decide (fld pw 22 20 ≤ e / 2 ^ 60 % 8 ∧ fld pw 19 17 ≤ e / 2 ^ 57 % 8) then
    let q := e % 2 ^ 20
    let s := s.pushItem (.lg lg) q [pw, BitVec.ofNat 128 buf] false
    match s.queues.get? q with
    | some a => { s with queues := s.queues.put q { a with feed := true } }
    | none => s
  else s

/-- Does a feed hold a buffer (05 R123)? -/
def State.feedHolds (s : State) (buf : Nat) : Bool :=
  s.queues.any (fun e => e.2.feed &&
    (e.2.items.any (fun i => fld ((i[1]?).getD 0) 47 0 == buf) || e.2.ready.any (fun r => fld ((r.words[1]?).getD 0) 47 0 == buf)))

/-- A packet joins the packets that wait for their walk. -/
def State.toWalk (s : State) (lg : Nat) (p : Pkt) : State :=
  s.setFwd { s.fwd with walk := s.fwd.walk.put lg (s.fwd.walk.getD lg [] ++ [p]) }

/-- Stage 9 for an RTP packet (R62): written, merged, tapped, and on to its walk. -/
def State.store (s : State) (lg stream : Nat) (pw : Word) (f : RxFrame) (p : List Byte) : State :=
  match s.takeBuf lg with
  | none => s.count F.LNK_ING_CNT_buf_empty 1 lg
  | some (a, s) =>
    let s := s.writeBuf a p
    let b : Buf := ⟨lg, f.arrivalUp, f.arrival, p.length, ceilDiv p.length 512, 1, true, false, none⟩
    let s := s.setFwd { s.fwd with bufs := s.fwd.bufs.put a b }
    match s.merge lg stream (netAt p 2 2) with
    | (none, s) => s.poolBack lg a
    | (some st, s) =>
      let pw := putFld pw 63 44 st
      (s.tap lg pw a).toWalk lg ⟨st, pw, a⟩

/-! ### The pipeline (R62, R63) -/

/-- Stage 6 (R79) for a packet of a stream; the packet in clear, or none where it is dropped and counted. -/
def State.decryptStage (s : State) (lg i : Nat) (rtcp : Bool) (p : List Byte) : Option (List Byte) × State :=
  let c := fld (s.word (s.recAddr i + 32)) 39 20
  if c = noCtx then (some p, s) else
    match (if rtcp then s.srtcpIn lg c p else s.srtpIn lg c p) with
    | (.ok q, s) => (some q, s)
    | (.replay, s) => (none, (s.ctxCount c 95 64).recCount i 7 47 32)
    | (.authFail empty, s) =>
      let s := (s.ctxCount c 127 96).recCount i 7 63 48
      (none, if empty then s.count F.SEC_CNT_key_empty else s)

/-- Stages 4 to 9 for a packet of stream `i`, owned by this link group. -/
def State.passStream (s : State) (lg i : Nat) (r : Parsed) (f : RxFrame) : State :=
  let blocked := (s.fwd.streamBlock.get? (lgKey lg i)).isSome || (s.fwd.legStop.get? (lgKey lg (s.recGet i 3 127 110))).isSome
  if blocked then (s.count F.LNK_ING_CNT_stop_drop 1 lg).recCount i 7 15 0 else
    let (colour, s) := s.police lg i r.dscp f.bytes.length
    let pol := fld (s.word (s.recAddr i + 32)) 55 40
    if colour = 2 ∧ s.flag F.LNK_POL_CFG0_red_pass lg pol = false then s.recBump i 7 95 64 else
      match s.decryptStage lg i r.rtcp (slice f.bytes r.pay r.len) with
      | (none, s) => s
      | (some p, s) =>
        let s := s.recBump i 7 127 96
        if r.rtcp then
          s.handFrame lg 0x10 i { f with bytes := f.bytes.take r.pay ++ p ++ f.bytes.drop (r.pay + r.len) } (fld (s.word (s.recAddr i + 32)) 19 0)
        else
          let (pw, s) := s.identify i colour f.arrival f.bytes.length p
          (s.record lg i pw p).store lg i pw f p

/-- Stages 2 to 9 for a frame. -/
def State.pipeline (s : State) (lg : Nat) (f : RxFrame) : State :=
  if s.flag F.LNK_ING_CTRL_en lg = false then s else
    match parse f.bytes with
    | .ipck => s.count F.LNK_ING_CNT_ipck 1 lg
    | .exc n => s.exception lg n 0 f
    | .fast r =>
      let p := slice f.bytes r.pay r.len
      match s.lookup ⟨r.ipv6, r.src, r.dst, r.sport, r.dport, if r.rtcp then netAt p 4 4 else netAt p 8 4⟩ with
      | none => s.exception lg 9 0 f
      | some i => if s.recGet i 3 11 8 = lg then s.passStream lg i r f else s.exception lg 0xA i f

/-- The port that stage 2 serves next, round-robin (12 R296). -/
def nextPort (turn : Nat) (l : List RxFrame) : Option Nat :=
  ((List.range 32).map (fun k => (turn + 1 + k) % 32)).find? (fun p => l.any (fun f => f.port == p))

/-- Stage 2 takes a frame and the pipeline runs on it. -/
def State.ingressNext (s : State) (lg : Nat) : State :=
  let l := s.fwd.rx.getD lg []
  match nextPort (s.fwd.rxTurn.getD lg 31) l with
  | none => s
  | some p =>
    match l.find? (fun f => f.port == p) with
    | none => s
    | some f =>
      (s.setFwd { s.fwd with rx := s.fwd.rx.put lg (dropFirst (fun f => f.port == p) l), rxTurn := s.fwd.rxTurn.put lg p }).pipeline lg f

/-! ### The MAC (12 R294-R296) -/

/-- The bin of a group address (R295). -/
def mcBin (mac : List Byte) : Nat := crcOver 0xEDB88320 0xFFFFFFFF mac / 2 ^ 20

/-- Is a destination address accepted (R295)? -/
def State.accepts (s : State) (lg port : Nat) (dst : List Byte) : Bool :=
  let d := beNat dst
  let bin := mcBin dst
  s.flag F.LNK_PORT_CFG_promisc lg port || d == s.get F.LNK_PORT_MAC_mac lg port || d == 2 ^ 48 - 1 ||
    (d / 2 ^ 40 % 2 == 1 && (s.get F.LNK_MC_HASH_bins lg (64 * port + bin / 64)).testBit (bin % 64))

/-- Bytes of a port's frames in a receive buffer. -/
def rxBytes (l : List RxFrame) (port : Nat) : Nat := (l.filter (fun f => f.port == port)).foldl (fun n f => n + f.bytes.length) 0

/-- Is there room for `n` bytes from a port (R296)? -/
def State.rxRoom (s : State) (lg port n : Nat) : Bool :=
  let l := s.fwd.rx.getD lg []
  let all := l.foldl (fun n f => n + f.bytes.length) 0
  let kept := (List.range 32).foldl (fun k p =>
    if p != port && s.flag F.LNK_PORT_CFG_en lg p then k + (65536 - rxBytes l p) else k) 0
  decide (rxBytes l port + n ≤ 65536) || decide (all + n + kept ≤ 4 * 2 ^ 20)

/-- The MAC's tests on a received frame, given without its FCS (R294). -/
def State.macReceive (s : State) (lg port : Nat) (b : List Byte) (fcsGood : Bool) : State :=
  if s.flag F.LNK_PORT_CFG_en lg port = false ∨ s.flag F.LNK_PORT_STAT_link lg port = false then s
  else if b.length + 4 < 64 then s.count F.LNK_PORT_CNT0_runt 1 lg port
  else if fcsGood = false then s.count F.LNK_PORT_CNT0_fcs 1 lg port
  else if b.length > s.get F.LNK_PORT_CFG_max_frame lg port then s.count F.LNK_PORT_CNT0_giant 1 lg port
  else if netAt b 12 2 = 0x8808 ∨ s.accepts lg port (b.take 6) = false then s.count F.LNK_PORT_CNT1_filt_drop 1 lg port
  else if s.rxRoom lg port b.length = false then s.count F.LNK_PORT_CNT0_rx_ovf 1 lg port
  else s.setFwd { s.fwd with rx := s.fwd.rx.put lg (s.fwd.rx.getD lg [] ++ [⟨port, b, s.mtime, s.upNs⟩]) }

end Sys2Proof.Machine
end

