-- ==== Sys2Proof/Machine/EgressOps.lean ====
section
/-! DEFINITION. The forwarder's egress (04): subscriptions, layer selection and renumbering, rooms, the replication walk,
leg queues and buckets, the copies a leg sends, history and retransmission, and the LNK egress registers' side effects. -/
namespace Sys2Proof.Machine

/-! ### Subscriptions (R94, R95) -/

/-- Words 2 and 3 of a subscription, spelled out. -/
structure Sub where
  curS : Nat
  curT : Nat
  pendS : Nat
  pendT : Nat
  pend : Bool
  reqSent : Bool
  pendPics : Nat
  seqInit : Bool
  lastIn : Nat
  dropSeq : Nat
  seqOff : Nat
  lastOut : Nat
  fwd : Nat
  skip : Nat
  switches : Nat
  refreshes : Nat
  late : Nat
  deriving DecidableEq, Repr

/-- A subscription from its words 2 and 3. -/
def Sub.ofWords (a b : Word) : Sub :=
  ⟨fld a 127 124, fld a 123 120, fld a 119 116, fld a 115 112, bit a 111, bit a 110, fld a 109 102, bit a 101, fld a 95 80,
   fld a 79 64, fld a 63 48, fld a 47 32, fld b 127 96, fld b 95 64, fld b 63 48, fld b 47 32, fld b 31 16⟩

/-- Words 2 and 3 of a subscription. -/
def Sub.toWords (x : Sub) : List Word :=
  [BitVec.ofNat 128 (x.curS * 2 ^ 124 + x.curT * 2 ^ 120 + x.pendS * 2 ^ 116 + x.pendT * 2 ^ 112 + bnat x.pend * 2 ^ 111 +
    bnat x.reqSent * 2 ^ 110 + x.pendPics * 2 ^ 102 + bnat x.seqInit * 2 ^ 101 + x.lastIn * 2 ^ 80 + x.dropSeq * 2 ^ 64 +
    x.seqOff * 2 ^ 48 + x.lastOut * 2 ^ 32),
   BitVec.ofNat 128 (x.fwd % 2 ^ 32 * 2 ^ 96 + x.skip % 2 ^ 32 * 2 ^ 64 + x.switches * 2 ^ 48 + x.refreshes * 2 ^ 32 + x.late * 2 ^ 16)]

/-- A subscription as its link group holds it: cached, or read from memory. -/
def State.sub (s : State) (i : Nat) : Sub :=
  match s.fwd.subCache.get? i with
  | some [a, b] => Sub.ofWords a b
  | _ => Sub.ofWords (s.word (s.subAddr i + 32)) (s.word (s.subAddr i + 48))

/-- A subscription set. -/
def State.setSub (s : State) (i : Nat) (x : Sub) : State :=
  s.setFwd { s.fwd with subCache := s.fwd.subCache.put i x.toWords }

/-- The value of a layer field that means none. -/
def noLayer : Nat := 15

/-- Is a packet of layers (s, t) selected for kinds 0 to 2 (R99)? -/
def Sub.selects (x : Sub) (kind s t : Nat) : Bool :=
  match kind with
  | 0 => x.curS != noLayer && decide (s ≤ x.curS ∧ t ≤ x.curT)
  | 1 => x.curS != noLayer && s == x.curS && decide (t ≤ x.curT)
  | _ => true

/-- Is the pending selection down-type (R100)? -/
def Sub.downType (x : Sub) (kind : Nat) : Bool :=
  x.pendS == noLayer || (x.curS != noLayer &&
    (if kind = 0 then decide (x.pendS ≤ x.curS ∧ x.pendT ≤ x.curT) else x.pendS == x.curS && decide (x.pendT ≤ x.curT)))

/-- One more selection applied. -/
def Sub.switched (x : Sub) : Sub := { x with switches := satAdd 16 x.switches 1 }

/-- The last line of R100: the pending selection's marks cleared when nothing is pending. -/
def Sub.settle (x : Sub) : Sub := if x.pend then x else { x with reqSent := false, pendPics := 0 }

/-- A packet tested against the pending selection (R100): the subscription after, whether a selection applied, and
whether a refresh with reason 2 is due. Kinds 2 and 3 need no switch point (R102; log 46). -/
def Sub.test (x : Sub) (kind rpol waitPics : Nat) (pw : Word) : Sub × Bool × Bool :=
  let s := fld pw 22 20
  let t := fld pw 19 17
  if kind ≥ 2 then
    if x.pend then (Sub.switched { x with curS := x.pendS, curT := x.pendT, pend := false }, true, false) else (x, false, false)
  else if x.pend = false then (x.settle, false, false)
  else if bit pw 26 = false then (x, false, false)
  else if x.downType kind || bit pw 24 then
    ((Sub.switched { x with curS := x.pendS, curT := x.pendT, pend := false }).settle, true, false)
  else if bit pw 23 && s == x.pendS && decide (t ≤ x.pendT) && (x.curS == noLayer || s != x.curS || decide (t > x.curT)) then
    ((Sub.switched { x with curS := s, curT := t, pend := !(s == x.pendS && t == x.pendT) }).settle, true, false)
  else if s = 0 then
    let x := { x with pendPics := min (x.pendPics + 1) 255 }
    (x, false, rpol == 2 && !x.reqSent && decide (x.pendPics ≥ waitPics))
  else (x, false, false)

/-- One copy made with the sequence number it leaves under. -/
def Sub.copied (x : Sub) (seq : Nat) : Sub × Option Nat :=
  ({ x with fwd := (x.fwd + 1) % 2 ^ 32 }, some ((seq + 65536 - x.seqOff) % 65536))

/-- One packet not selected. -/
def Sub.skipped (x : Sub) : Sub := { x with skip := (x.skip + 1) % 2 ^ 32 }

/-- The renumbering of R104: the subscription after, and the output sequence number of a copy. -/
def Sub.renumber (x : Sub) (sel : Bool) (seq : Nat) : Sub × Option Nat :=
  if x.seqInit = false then
    if sel then
      Sub.copied { x with seqOff := (seq + 2 * 65536 - x.lastOut - 1) % 65536, seqInit := true, lastIn := seq, dropSeq := (seq + 65535) % 65536 } seq
    else (x.skipped, none)
  else
    let delta := (seq + 65536 - x.lastIn) % 65536
    if delta = 0 ∨ delta ≥ 32768 then
      let d := (seq + 65536 - x.dropSeq) % 65536
      if sel && delta != 0 && decide (1 ≤ d ∧ d ≤ 32767) then x.copied seq
      else if sel then ({ x with late := satAdd 16 x.late 1 }, none)
      else (x.skipped, none)
    else if sel then Sub.copied { x with lastIn := seq, lastOut := (seq + 65536 - x.seqOff) % 65536 } seq
    else (Sub.skipped { x with lastIn := seq, seqOff := (x.seqOff + 1) % 65536, dropSeq := seq }, none)

/-- The packet that applies a selection handed over from a partner (R102): copied under the number after the partner's last, or
skipped as R104 skips the packet that is last_in (log 47). -/
def Sub.takeOver (x : Sub) (partnerOut : Nat) (sel : Bool) (seq : Nat) : Sub × Option Nat :=
  let x := { x with
    seqOff := (seq + 2 * 65536 - partnerOut - 1) % 65536, seqInit := true, lastIn := seq, dropSeq := (seq + 65535) % 65536 }
  if sel then Sub.copied { x with lastOut := (seq + 65536 - x.seqOff) % 65536 } seq else (x.skipped, none)

/-! ### Refresh requests (R103) -/

/-- A refresh item pushed for a subscription: nothing where refresh_q is none. -/
def State.pushRefresh (s : State) (lg i stream reason : Nat) : State :=
  let w0 := s.word (s.subAddr i)
  let q := fld (s.word (s.subAddr i + 16)) 107 88
  if q = noQueue then s else
    let x := s.sub i
    let s := s.setSub i { x with refreshes := satAdd 16 x.refreshes 1, reqSent := true }
    s.pushItem (.lg lg) q [s.stampWord (BitVec.ofNat 128 (i * 2 ^ 40 + stream * 2 ^ 20 + x.pendS * 2 ^ 16 + x.pendT * 2 ^ 12 +
      fld w0 83 83 * 2 ^ 11 + reason * 2 ^ 8))]

/-! ### Rooms (R107, R108) -/

/-- The address of a room record. -/
def State.roomAddr (s : State) (r : Nat) : Nat := s.get F.LNK_ROOM_BASE_base * 2 ^ 20 + 512 * r

/-- A room's words as the link group holds them. -/
def State.room (s : State) (r : Nat) : List Word := (s.fwd.rooms.get? r).getD (s.words (s.roomAddr r) 32)

/-- A member of a room. -/
structure Member where
  stream : Nat
  sel : Bool
  smooth : Nat
  since : Nat
  deriving DecidableEq, Repr

/-- Member j of a room's words. -/
def memberOf (ws : List Word) (j : Nat) : Member :=
  let w := (ws[1 + j / 2]?).getD 0
  let b := 64 * (j % 2)
  ⟨fld w (b + 63) (b + 44), bit w (b + 43), fld w (b + 39) (b + 24), fld w (b + 23) b⟩

/-- The members of a room. -/
def members (ws : List Word) : List Member :=
  (List.range (min 62 (fld ((ws[0]?).getD 0) 123 118))).map (memberOf ws)

/-- A room's words with the device's fields of member j. -/
def putMember (ws : List Word) (j : Nat) (m : Member) : List Word :=
  let b := 64 * (j % 2)
  let w := (ws[1 + j / 2]?).getD 0
  setAt ws (1 + j / 2) (putFld w (b + 43) b (bnat m.sel * 2 ^ 43 + m.smooth % 2 ^ 16 * 2 ^ 24 + m.since % 2 ^ 24))

/-- The selected member with the least smooth, lowest position first. -/
def quietest (ms : List Member) : Option (Nat × Member) :=
  (ms.zipIdx.filter (fun e => e.1.sel)).foldl (fun (b : Option (Nat × Member)) e =>
    match b with
    | none => some (e.2, e.1)
    | some (j, m) => if e.1.smooth < m.smooth then some (e.2, e.1) else some (j, m)) none

/-- The update of R108 by a packet of member j: the members after. -/
def roomUpdate (n hyst holdMs nowMs : Nat) (ms : List Member) (j level : Nat) (v : Bool) : List Member :=
  match ms[j]? with
  | none => ms
  | some m =>
    let e : Int := if v then 127 - (level : Int) else 0
    let m := { m with smooth := ((m.smooth : Int) + (e * 256 - m.smooth).tdiv 8).toNat }
    let ms := setAt ms j m
    if m.sel then ms
    else if (ms.filter (·.sel)).length < n then setAt ms j { m with sel := true, since := nowMs }
    else match quietest ms with
      | none => ms
      | some (k, w) =>
        if m.smooth > w.smooth + hyst * 256 ∧ (nowMs + 2 ^ 24 - w.since) % 2 ^ 24 ≥ holdMs then
          setAt (setAt ms k { w with sel := false }) j { m with sel := true, since := nowMs }
        else ms

/-- The device's fields of a room written back: the members' and, after a change of selection, its m-time. -/
def State.storeRoom (s : State) (r : Nat) (old : List Member) (ws : List Word) (ms : List Member) : State :=
  let changed := old.map (·.sel) != ms.map (·.sel)
  let ws := ms.zipIdx.foldl (fun ws e => putMember ws e.2 e.1) ws
  let ws := if changed then setAt ws 0 (putFld ((ws[0]?).getD 0) 63 0 s.mtime) else ws
  let s := s.setFwd { s.fwd with rooms := s.fwd.rooms.put r ws }
  let a := s.roomAddr r
  let s := ms.zipIdx.foldl (fun (s : State) (e : Member × Nat) =>
    let b := 64 * (e.2 % 2)
    s.putWord (a + 16 * (1 + e.2 / 2)) (b + 43) b (bnat e.1.sel * 2 ^ 43 + e.1.smooth * 2 ^ 24 + e.1.since)) s
  if changed then s.putWord a 63 0 s.mtime else s

/-- A packet of a stream updates a room (R108). -/
def State.updateRoom (s : State) (r stream : Nat) (pw : Word) : State :=
  let ws := s.room r
  let w0 : Word := (ws[0]?).getD 0
  let ms := members ws
  match (ms.zipIdx.find? (fun e => e.1.stream == stream)).map (·.2) with
  | none => s
  | some j =>
    s.storeRoom r ms ws (roomUpdate (min 8 (fld w0 127 124)) (fld w0 117 111) (fld w0 110 95) (s.mtime / 10 ^ 6 % 2 ^ 24) ms j
      (fld pw 14 8) (bit pw 15))

/-- Is a stream selected in a room (R99)? -/
def State.roomSelects (s : State) (r stream : Nat) : Bool := (members (s.room r)).any (fun m => m.stream == stream && m.sel)

/-- A room reloaded (R107): the device's fields kept for the streams that remain, zero for new ones; the m-time of the last change is
the device's as well. Of a room not held yet every member is new. -/
def State.reloadRoom (s : State) (r : Nat) : State :=
  let ws := s.words (s.roomAddr r) 32
  let old := ((s.fwd.rooms.get? r).map members).getD []
  let last := fld ((((s.fwd.rooms.get? r).getD ws)[0]?).getD 0) 63 0
  let ms := (members ws).map (fun m =>
    match old.find? (fun o => o.stream == m.stream) with
    | some o => { m with sel := o.sel, smooth := o.smooth, since := o.since }
    | none => { m with sel := false, smooth := 0, since := 0 })
  (s.storeRoom r ms (setAt ws 0 (putFld ((ws[0]?).getD 0) 63 0 last)) ms).putWord (s.roomAddr r) 63 0 last

/-! ### Legs (R92, R93, R109, R110) -/

/-- Words 3 and 4 of a leg as last loaded. -/
def State.legCfgWords (s : State) (l : Nat) : List Word := (s.fwd.legCfg.get? l).getD (s.words (s.legAddr l + 48) 2)

/-- A field of word 3 or 4 of a leg as last loaded. -/
def State.legCfg (s : State) (l w hi lo : Nat) : Nat := fld (((s.legCfgWords l)[w - 3]?).getD 0) hi lo

/-- A leg's configuration held from its first use on. -/
def State.useLeg (s : State) (l : Nat) : State :=
  match s.fwd.legCfg.get? l with
  | some _ => s
  | none => s.setFwd { s.fwd with legCfg := s.fwd.legCfg.put l (s.words (s.legAddr l + 48) 2) }

/-- Reload of a leg (R93): words 3 and 4 as memory holds them. -/
def State.reloadLeg (s : State) (l : Nat) : State :=
  s.setFwd { s.fwd with legCfg := s.fwd.legCfg.put l (s.words (s.legAddr l + 48) 2) }

/-- A rate limit that below the committed rate acts as it; 0 is no limit (R92). -/
def peakRate (cir pir : Nat) : Nat := if pir = 0 then 0 else max cir pir

/-- A bucket risen for `dt` ns (R110): one with no peak limit stays full. -/
def Bucket.risen (b : Bucket) (cir pir cbs pbs dt now : Nat) : Bucket :=
  let x := ({ b with last := 0 }).rise cir pir cbs pbs dt
  { x with tp := if pir = 0 then (pbs * perByte : Nat) else x.tp, last := now }

/-- A leg's buckets at present (R110), from word 5 where none are held. -/
def State.legBucket (s : State) (l : Nat) : Bucket :=
  let cir := s.legCfg l 3 127 100
  let pir := peakRate cir (s.legCfg l 3 99 72)
  let cbs := s.legCfg l 3 71 48
  let pbs := s.legCfg l 3 47 24
  match s.fwd.legB.get? l with
  | some b => b.risen cir pir cbs pbs (s.upNs - b.last) s.upNs
  | none =>
    let ago := (s.mtime + 2 ^ 64 - s.legGet l 5 63 0) % 2 ^ 64
    let b : Bucket := ⟨signed 32 (s.legGet l 5 127 96) * perByte, signed 32 (s.legGet l 5 95 64) * perByte, 0⟩
    b.risen cir pir cbs pbs (if ago < 2 ^ 63 then ago else 0) s.upNs

/-- The rates of a class: cir, and pir as it acts (R110: as a leg's). -/
def State.classRates (s : State) (lg i : Nat) : Nat × Nat :=
  let cir := s.get F.LNK_CLASS_SHP0_cir lg i
  (cir, peakRate cir (s.get F.LNK_CLASS_SHP0_pir lg i))

/-- A class's buckets at present (R110). -/
def State.classBucket (s : State) (lg port c : Nat) : Bucket :=
  let i := 8 * port + c
  let cbs := s.get F.LNK_CLASS_SHP1_cbs lg i
  let pbs := s.get F.LNK_CLASS_SHP1_pbs lg i
  let b := (s.fwd.classB.get? (256 * lg + i)).getD (Bucket.full cbs pbs s.upNs)
  b.risen (s.classRates lg i).1 (s.classRates lg i).2 cbs pbs (s.upNs - b.last) s.upNs

/-- The write of a class shaper register fills both class buckets (R117). -/
def State.wrClassShaper (s : State) (n : RegName) (lg i : Nat) (v : Reg64) : State :=
  let s := s.setReg n (codedWrite n.info (s.reg n lg i) v) lg i
  let b := Bucket.full (s.get F.LNK_CLASS_SHP1_cbs lg i) (s.get F.LNK_CLASS_SHP1_pbs lg i) s.upNs
  s.setFwd { s.fwd with classB := s.fwd.classB.put (256 * lg + i) b }

/-- Eligibility of a frame of `n` charged bytes: 2 committed, 1 excess, 0 neither (R110). -/
def Bucket.eligible (b : Bucket) (cir pir : Nat) (n : Int) : Nat :=
  let z : Int := n * perByte
  if pir ≠ 0 ∧ b.tp < z then 0 else if cir ≠ 0 ∧ b.tc ≥ z then 2 else 1

/-- A bucket after a frame of `n` charged bytes sent as committed (2) or excess (1). -/
def Bucket.debit (b : Bucket) (how : Nat) (n : Int) : Bucket :=
  let z : Int := n * perByte
  { b with tp := b.tp - z, tc := if how = 2 then b.tc - z else b.tc }

/-- A leg's buckets set, and shown in word 5 as signed bytes. -/
def State.setLegBucket (s : State) (l : Nat) (b : Bucket) : State :=
  let s := s.setFwd { s.fwd with legB := s.fwd.legB.put l b }
  ((s.legPut l 5 127 96 (unsigned 32 (b.tc.fdiv perByte))).legPut l 5 95 64 (unsigned 32 (b.tp.fdiv perByte))).legPut l 5 63 0 s.mtime

/-- A leg record's words written back: tw_seq and words 5 to 7 (R93). -/
def State.writeBackLeg (s : State) (l : Nat) : State :=
  match s.fwd.legCache.get? l with
  | some (a :: ws) => (s.putWord (s.legAddr l + 64) 63 48 (fld a 63 48)).setWords (s.legAddr l + 80) ws
  | _ => s

/-- A leg seen with valid 0: what is held of it is written back, and read anew at its next use (R93; log 39). -/
def State.forgetLeg (s : State) (l : Nat) : State :=
  let s := s.writeBackLeg l
  s.setFwd { s.fwd with legCfg := s.fwd.legCfg.del l, legCache := s.fwd.legCache.del l, legB := s.fwd.legB.del l }

/-- A subscription's words 2 and 3 written back (R95). -/
def State.writeBackSub (s : State) (i : Nat) : State :=
  match s.fwd.subCache.get? i with
  | some ws => s.setWords (s.subAddr i + 32) ws
  | none => s

/-- The record written back within 100 us of a change (R87, R93, R95). -/
def State.writeBack (s : State) (k : WbKind) (i : Nat) : State :=
  match k with
  | .stream => s.writeBackRec i
  | .sub => s.writeBackSub i
  | .leg => s.writeBackLeg i

/-! ### The walk (R96-R98) -/

/-- A walk under way: the copies made, the rooms it has updated, and whether it stopped with entries left. -/
structure Walk where
  st : State
  made : Nat
  rooms : List Nat
  cut : Bool

/-- A copy made for a subscription leaves for its leg's link group. -/
def State.makeCopy (s : State) (i leg seq : Nat) (p : Pkt) (marker : Bool) (kind : Nat) (x : Sub) : State :=
  let out := fld (s.word (s.legAddr leg + 32)) 23 20
  let m := marker || (kind == 0 && bit p.pw 25 && fld p.pw 22 20 == x.curS)
  let arrival := ((s.fwd.bufs.get? p.buf).map (·.arrival)).getD s.upNs
  let c : Copy := ⟨i, leg, p.buf, seq, p.pw, m, false, arrival⟩
  let bufs := match s.fwd.bufs.get? p.buf with
    | some b => s.fwd.bufs.put p.buf { b with copies := b.copies + 1 }
    | none => s.fwd.bufs
  s.setFwd { s.fwd with copies := s.fwd.copies.put out (s.fwd.copies.getD out [] ++ [c]), bufs := bufs }

/-- The partner's selection ends (R102). -/
def State.endPartner (s : State) (i : Nat) : State :=
  s.setSub i { s.sub i with curS := noLayer, curT := noLayer, pend := false }

/-- A valid entry whose leg may take copies: selection and renumbering of a packet (R99-R104). -/
def Walk.subscribe (k : Walk) (lg : Nat) (p : Pkt) (seq : Nat) (marker : Bool) (i leg : Nat) : Walk :=
  let w0 := k.st.word (k.st.subAddr i)
  let w1 := k.st.word (k.st.subAddr i + 16)
  let kind := fld w0 109 108
  let room := fld w0 107 94
  let (x, applied, refresh) := (k.st.sub i).test kind (fld w0 93 92) (fld w0 91 84) p.pw
  let s := k.st.setSub i x
  let s := if refresh then s.pushRefresh lg i p.stream 2 else s
  let fresh := kind == 3 && !k.rooms.contains room
  let s := if fresh then s.updateRoom room p.stream p.pw else s
  let x := s.sub i
  let sel := if kind = 3 then s.roomSelects room p.stream else x.selects kind (fld p.pw 22 20) (fld p.pw 19 17)
  let hand := applied && bit w1 31
  let (x, out) := if hand then x.takeOver (s.sub (fld w1 23 0)).lastOut sel seq else x.renumber sel seq
  let s := if hand then s.endPartner (fld w1 23 0) else s
  let s := s.setSub i x
  let rooms := if fresh then room :: k.rooms else k.rooms
  match out with
  | none => { k with st := s, rooms := rooms }
  | some n => { k with st := s.makeCopy i leg n p marker kind x, made := k.made + 1, rooms := rooms }

/-- The entries of a block, in order (R96, R97). -/
def Walk.entries (lg : Nat) (p : Pkt) (seq : Nat) (marker : Bool) : List Nat → Walk → Walk
  | [], k => k
  | e :: es, k =>
    if k.made ≥ 65536 then { k with cut := true }
    else if e.testBit 31 = false then Walk.entries lg p seq marker es k
    else
      let i := e % 2 ^ 24
      let leg := fld (k.st.word (k.st.subAddr i)) 127 110
      if bit (k.st.word (k.st.legAddr leg + 32)) 30 = false then
        Walk.entries lg p seq marker es { k with st := k.st.forgetLeg leg }
      else if (k.st.fwd.legStop.get? (lgKey lg leg)).isSome then Walk.entries lg p seq marker es k
      else Walk.entries lg p seq marker es (k.subscribe lg p seq marker i leg)

/-- The entries of a block's words. -/
def blockEntries (ws : List Word) : List Nat :=
  let n := min 124 (fld ((ws[0]?).getD 0) 127 112)
  (List.range n).map (fun j => fld ((ws[1 + j / 4]?).getD 0) (32 * (j % 4) + 31) (32 * (j % 4)))

/-- A block's words. -/
def State.replBlock (s : State) (b : Nat) : List Word := s.words (s.get F.LNK_REPL_BASE_base * 2 ^ 20 + 512 * b) 32

/-- Does an entry in use remain in a list from block `b` on, over at most `n` blocks (R97)? -/
def State.entriesRemain (s : State) : Nat → Nat → Bool
  | 0, _ => false
  | n + 1, b =>
    if b ≥ 8388608 then false
    else if (blockEntries (s.replBlock b)).isEmpty then s.entriesRemain n (fld (((s.replBlock b)[0]?).getD 0) 31 0) else true

/-- Blocks of the replication area: none is met twice on the way to a first entry in use of a list that is not a loop. -/
def replBlocks : Nat := 8388608

/-- The blocks of a list from block `b` (R96, R97). -/
def Walk.blocks (lg : Nat) (p : Pkt) (seq : Nat) (marker : Bool) : Nat → Nat → Walk → Walk
  | 0, b, k => { k with cut := k.cut || k.st.entriesRemain replBlocks b }
  | n + 1, b, k =>
    if b ≥ 8388608 ∨ k.cut then k
    else if k.made ≥ 65536 then { k with cut := k.st.entriesRemain replBlocks b }
    else
      let ws := k.st.replBlock b
      Walk.blocks lg p seq marker n (fld ((ws[0]?).getD 0) 31 0) (Walk.entries lg p seq marker (blockEntries ws) k)

/-- The packet at the head of a link group's waiting packets is walked (R97); with egress disabled no copy is made (R117). -/
def State.walkNext (s : State) (lg : Nat) : State :=
  match s.fwd.walk.getD lg [] with
  | [] => s
  | p :: rest =>
    let s := s.setFwd { s.fwd with walk := s.fwd.walk.put lg rest }
    let s :=
      if s.flag F.LNK_EGR_CTRL_en lg then
        let h := s.rd p.buf 16
        let k := Walk.blocks lg p (netAt h 2 2) (decide (bAt h 1 ≥ 128)) 1024 (s.recGet p.stream 3 63 32) ⟨s, 0, [], false⟩
        if k.cut then k.st.count F.LNK_EGR_CNT_fan_trunc 1 lg else k.st
      else s
    s.copyDone p.buf

/-! ### Leg queues (R109, R113, R115) -/

/-- The copies that wait at a leg. -/
def State.legQueue (s : State) (lg l : Nat) : List Copy := s.fwd.legQ.getD (lgKey lg l) []

/-- A leg's waiting copies set. -/
def State.setLegQueue (s : State) (lg l : Nat) (q : List Copy) : State :=
  s.setFwd { s.fwd with legQ := if q.isEmpty then s.fwd.legQ.del (lgKey lg l) else s.fwd.legQ.put (lgKey lg l) q }

/-- Copies queued at a link group. -/
def State.queuedAt (s : State) (lg : Nat) : Nat :=
  (s.fwd.legQ.filter (fun e => e.1 / 2 ^ 20 == lg)).foldl (fun n e => n + e.2.length) 0

/-- Copies at the head that reached it past the leg's age limit are dropped (R109). -/
def State.ageHeads (lg l : Nat) : Nat → State → State
  | 0, s => s
  | n + 1, s =>
    match s.legQueue lg l with
    | [] => s
    | c :: rest =>
      let limit := s.legCfg l 3 15 0
      if limit ≠ 0 ∧ s.upNs > c.arrival + limit * 1000 then
        let s := (s.setLegQueue lg l rest).copyDone c.buf
        State.ageHeads lg l n ((s.legPut l 6 63 32 (s.legGet l 6 63 32 + 1)).count F.LNK_EGR_CNT_age_drop 1 lg)
      else s

/-- A copy enters its leg queue, or is dropped because the queue or the pool is full (R109); answers whether it entered. -/
def State.enqueue (s : State) (lg : Nat) (c : Copy) : Bool × State :=
  let s := s.useLeg c.leg
  let q := s.legQueue lg c.leg
  if q.length ≥ max 1 (s.legCfg c.leg 3 23 16) ∨ s.queuedAt lg ≥ 65536 then
    (false, ((s.copyDone c.buf).legPut c.leg 6 95 64 (s.legGet c.leg 6 95 64 + 1)).count F.LNK_EGR_CNT_q_drop 1 lg)
  else
    let s := s.setLegQueue lg c.leg (q ++ [c])
    (true, if q.isEmpty then State.ageHeads lg c.leg 1 s else s)

/-- A history item of a copy (R113). -/
def historyItem (c : Copy) : List Word :=
  [c.pw, BitVec.ofNat 128 (c.sub * 2 ^ 104 + c.outSeq * 2 ^ 88 + bnat c.marker * 2 ^ 87 + c.buf)]

/-- The next copy that arrives at a link group (R109, R113, R115). -/
def State.copyArrives (s : State) (lg : Nat) : State :=
  match s.fwd.copies.getD lg [] with
  | [] => s
  | c :: rest =>
    let s := s.setFwd { s.fwd with copies := s.fwd.copies.put lg rest }
    if (s.fwd.legStop.get? (lgKey lg c.leg)).isSome then
      ((s.copyDone c.buf).legPut c.leg 6 15 0 (satAdd 16 (s.legGet c.leg 6 15 0) 1)).count F.LNK_EGR_CNT_stop_drop 1 lg
    else
      let (ok, s) := s.enqueue lg c
      if ok then s.pushItem (.lg lg) (s.legCfg c.leg 4 127 108) (historyItem c) false (some (s.legCfg c.leg 4 107 96)) else s

/-! ### Selection commands (R101, R107) -/

/-- A selection command reported. -/
def State.selReport (s : State) (lg ticket result : Nat) : State :=
  (s.put F.LNK_SEL_STAT_ticket ticket lg).put F.LNK_SEL_STAT_result result lg

/-- Are the operands of a selection command good (R101)? -/
def selLegal (op sp t index : Nat) : Bool :=
  match op with
  | 1 => (sp == noLayer || (decide (sp ≤ 7) && decide (t ≤ 7)))
  | 2 => true
  | 3 => true
  | 4 => decide (index < 262144)
  | 5 => decide (index < 16384)
  | _ => false

/-- The write of LNK_SEL_CMD: queued, or refused (R101). DESIGN CHOICE (log 90): 2 before 3. -/
def State.wrSelCmd (s : State) (lg : Nat) (v : Reg64) : State :=
  let op := fld v 63 60
  let t := fld v 59 52
  let q := s.fwd.selQ.getD lg []
  if q.length ≥ 64 then s.selReport lg t 2
  else if selLegal op (fld v 51 48) (fld v 47 44) (fld v 23 0) = false then s.selReport lg t 3
  else s.setFwd { s.fwd with selQ := s.fwd.selQ.put lg (q ++ [⟨op, t, fld v 51 48, fld v 47 44, fld v 23 0, none⟩]) }

/-- Does a replication list hold a subscription? -/
def State.listHas (s : State) (i : Nat) : Nat → Nat → Bool
  | 0, _ => false
  | n + 1, b =>
    if b ≥ 8388608 then false else
      let ws := s.replBlock b
      (blockEntries ws).any (fun e => e.testBit 31 && e % 2 ^ 24 == i) || s.listHas i n (fld ((ws[0]?).getD 0) 31 0)

/-- Is stream `i`, of this link group, the source of a subscription: does its list hold it? -/
def State.feeds (s : State) (lg sub i : Nat) : Bool :=
  s.recGet i 3 11 8 == lg && s.listHas sub 1024 (s.recGet i 3 63 32)

/-- The source stream of a subscription (R103), whose record may stand in the stream table alone; free where no list holds the
subscription (log 48). -/
def State.sourceOf (s : State) (lg i : Nat) : Nat × State :=
  match s.fwd.recCache.find? (fun e => s.feeds lg i e.1) with
  | some e => (e.1, s)
  | none =>
    match (List.range 1048576).find? (fun st => bit (s.word (s.recAddr st + 32)) 63 && s.feeds lg i st) with
    | some st => (st, s)
    | none => let (n, s) := s.fresh; (n % 2 ^ 20, s)

/-- Op 1 on a subscription (R101). -/
def State.selectOp (s : State) (lg i sp t : Nat) : State :=
  let x := s.sub i
  let w0 := s.word (s.subAddr i)
  if (sp = x.curS ∧ t = x.curT) ∨ (sp = noLayer ∧ x.curS = noLayer) then s.setSub i { x with pend := false }
  else
    let x := { x with pend := true, pendS := sp, pendT := t, pendPics := 0, reqSent := false }
    let s := s.setSub i x
    if fld w0 93 92 = 1 ∧ x.downType (fld w0 109 108) = false then
      let (st, s) := s.sourceOf lg i
      s.pushRefresh lg i st 1
    else s

/-- A selection command's effect (R101). -/
def State.selEffect (s : State) (lg : Nat) (c : Cmd) : State :=
  match c.op with
  | 1 => s.selectOp lg c.c c.a c.b
  | 2 => let (st, s) := s.sourceOf lg c.c; s.pushRefresh lg c.c st 3
  | 3 => s.setSub c.c { s.sub c.c with curS := noLayer, curT := noLayer, pend := false }
  | 4 => s.reloadLeg c.c
  | _ => s.reloadRoom c.c

/-- The effects of a link group's waiting selection commands, in order. -/
def State.serveSel (s : State) (lg : Nat) : State :=
  let (s1, l) := serveAll (fun s c => (1, s.selEffect lg c)) s (s.fwd.selQ.getD lg [])
  s1.setFwd { s1.fwd with selQ := s1.fwd.selQ.put lg l }

/-- The selection command at the head completes (R101). -/
def State.selComplete (s : State) (lg : Nat) : State :=
  match s.fwd.selQ.getD lg [] with
  | [] => s
  | c :: rest =>
    let s := if c.served.isSome then s else s.selEffect lg c
    ((s.setFwd { s.fwd with selQ := s.fwd.selQ.put lg rest }).selReport lg c.ticket 1).bump F.LNK_SEL_STAT_done 1 lg

/-! ### Building a leg's frame (R105, R114) -/

/-- Transmit context of a copy; a retransmission in RFC 4588 format uses the next one (R114). -/
def State.copyCtx (s : State) (c : Copy) : Nat :=
  let w1 := s.word (s.subAddr c.sub + 16)
  let x := fld w1 127 108
  if c.rtx && bit w1 80 && x != noCtx then x + 1 else x

/-- Is a copy sent in RFC 4588 format? -/
def State.rtxFormat (s : State) (c : Copy) : Bool := c.rtx && bit (s.word (s.subAddr c.sub + 16)) 80

/-- Bytes of the RTP packet in a buffer. -/
def State.bufLen (s : State) (a : Nat) : Nat := ((s.fwd.bufs.get? a).map (·.len)).getD 0

/-- Length of a copy's frame without FCS, as it will be sent. -/
def State.copyLen (s : State) (c : Copy) : Nat :=
  let w2 := s.word (s.legAddr c.leg + 32)
  let x := s.copyCtx c
  let tag := if x = noCtx then 0 else tagLen (fld (s.word (s.ctxAddr x)) 127 120)
  max 60 (14 + 4 * fld w2 32 32 + (if bit w2 31 then 40 else 20) + 8 + s.bufLen c.buf + tag + (if s.rtxFormat c then 2 else 0))

/-- The RTP packet of a copy in clear (R105, R114). -/
def State.copyRtp (s : State) (c : Copy) : List Byte :=
  let p := s.rd c.buf (s.bufLen c.buf)
  let w0 := s.word (s.subAddr c.sub)
  let w1 := s.word (s.subAddr c.sub + 16)
  let st := fld c.pw 63 44
  let tw := s.recGet st 3 93 86
  let dd := s.recGet st 3 109 102
  let lv := s.recGet st 3 101 94
  let seq := s.legGet c.leg 4 63 48
  let strip := s.legCfg c.leg 4 71 71
  let p := mapExt p (fun (e : ExtElem) =>
    if e.1 = tw ∧ tw ≠ 0 then (s.legCfg c.leg 4 95 88, if e.2.length ≥ 2 then beBytes 2 seq ++ e.2.drop 2 else e.2)
    else if e.1 = dd ∧ dd ≠ 0 then (s.legCfg c.leg 4 87 80, e.2)
    else if e.1 = lv ∧ lv ≠ 0 then (s.legCfg c.leg 4 79 72, e.2)
    else if strip = 1 then (0, e.2) else e)
  let n := rtpHeader p
  let rtx := s.rtxFormat c
  let pt := if rtx then fld w1 87 81 else bAt p 1 % 128
  let out := if rtx then fld w1 47 32 else c.outSeq
  let ssrc := if rtx then fld w1 79 48 else fld w0 63 32
  p.take 1 ++ beBytes 1 (bnat c.marker * 128 + pt) ++ beBytes 2 out ++ beBytes 4 (netAt p 4 4 + fld w0 31 0) ++ beBytes 4 ssrc ++
    slice p 12 (n - 12) ++ (if rtx then beBytes 2 c.outSeq else []) ++ p.drop n

/-- The addressing of a leg's frames (R105). -/
def State.legAddress (s : State) (lg l : Nat) : Address :=
  let w2 := s.word (s.legAddr l + 32)
  { dstMac := fld w2 95 48, srcMac := s.get F.LNK_PORT_MAC_mac lg (fld w2 19 15), vid := fld w2 47 36, pcp := fld w2 35 33,
    vlan := bit w2 32, ipv6 := bit w2 31, src := (s.word (s.legAddr l + 16)).toNat, dst := (s.word (s.legAddr l)).toNat,
    sport := fld w2 111 96, dport := fld w2 127 112, dscp := fld w2 29 24, ttl := fld w2 11 4 }

/-- A copy's frame without FCS, or none where a tile fails (13 R330) or no key serves it (14 R340). -/
def State.buildCopy (s : State) (lg : Nat) (c : Copy) : Option (List Byte) × State :=
  let (s, bad) := s.verifyBy (.lg lg) .forwarder (ceilDiv (s.bufLen c.buf) 512) c.buf
  if !bad.isEmpty then (none, s) else
    let x := s.copyCtx c
    let p := s.copyRtp c
    if x = noCtx then (some (frameOf (s.legAddress lg c.leg) p), s)
    else match s.srtpOut lg x p with
      | (none, s) => (none, s)
      | (some q, s) => (some (frameOf (s.legAddress lg c.leg) q), s)

/-- The counts and numbers of a leg after a copy was sent in `n` bytes through the FCS. -/
def State.sentCopy (s : State) (c : Copy) (n : Nat) : State :=
  let l := c.leg
  let s := (s.legPut l 4 63 48 (s.legGet l 4 63 48 + 1)).legPut l 6 127 96 (s.legGet l 6 127 96 + 1)
  let s := s.legPut l 7 127 64 (s.legGet l 7 127 64 + n)
  let s := if c.rtx then s.legPut l 6 31 16 (satAdd 16 (s.legGet l 6 31 16) 1) else s
  let a := s.subAddr c.sub + 16
  let s := if s.rtxFormat c then s.putWord a 47 32 (fld (s.word a) 47 32 + 1) else s
  s.copyDone c.buf

/-! ### Retransmission (R114) -/

/-- hold_ms of a link group, at most 1,000 (R117). -/
def State.holdMs (s : State) (lg : Nat) : Nat := min 1000 (s.get F.LNK_EGR_CTRL_hold_ms lg)

/-- The newest history item of a leg that meets `p`, among those searched whose subscription has an out_ssrc. -/
def State.findHistory (s : State) (lg leg ssrc : Nat) (p : Nat → Bool) : Option (List Word) :=
  match s.queues.get? (s.legCfg leg 4 127 108) with
  | none => none
  | some a =>
    (a.items.reverse.take (clampNat (s.get F.LNK_EGR_CTRL_rtx_scan lg) 1 4096)).find? (fun i =>
      let w1 : Word := (i[1]?).getD 0
      p (fld w1 103 88) && fld (s.word (s.subAddr (fld w1 127 104))) 63 32 == ssrc)

/-- Is every retransmission of an SSRC of a leg refused: the leg is stopped, or its subscription, as the history names it, can have
no retransmission context (R114)? -/
def State.rtxRefused (s : State) (lg leg ssrc : Nat) : Bool :=
  (s.fwd.legStop.get? (lgKey lg leg)).isSome ||
    ((s.findHistory lg leg ssrc (fun _ => true)).map (fun i =>
      let x := s.word (s.subAddr (fld ((i[1]?).getD 0) 127 104) + 16)
      bit x 80 && fld x 127 108 == 0xFFFFE)).getD false

/-- One requested sequence number: the result, with its effect. -/
def State.retransmit (s : State) (lg leg ssrc seq : Nat) : Nat × State :=
  if s.rtxRefused lg leg ssrc then (3, s) else
    match s.findHistory lg leg ssrc (fun n => n == seq) with
    | none => (1, s)
    | some i =>
      let pw : Word := (i[0]?).getD 0
      let w1 : Word := (i[1]?).getD 0
      let buf := fld w1 47 0
      match s.fwd.bufs.get? buf with
      | none => (2, s)
      | some b =>
        if (s.mtime + 2 ^ 64 - fld pw 127 64) % 2 ^ 64 ≥ s.holdMs lg * 10 ^ 6 then (2, s)
        else
          let s := s.setFwd { s.fwd with bufs := s.fwd.bufs.put buf { b with copies := b.copies + 1 } }
          let (ok, s) := s.enqueue lg ⟨fld w1 127 104, leg, buf, seq, pw, bit w1 87, true, s.upNs⟩
          (if ok then 0 else 3, s)

/-- The sequence numbers a request names, with their places in the results. -/
def rtxWanted (pid blp : Nat) : List (Nat × Nat) :=
  (0, pid) :: ((List.range 16).filter (fun i => blp.testBit i)).map (fun i => (i + 1, (pid + 1 + i) % 65536))

/-- The next retransmission request of a link group (R114). -/
def State.rtxNext (s : State) (lg : Nat) : State :=
  if s.flag F.LNK_RTX_QUEUE_en lg = false then s else
    match s.popItem (s.get F.LNK_RTX_QUEUE_queue lg) with
    | some (w :: _, s) =>
      let leg := fld w 63 46
      let s := s.useLeg leg
      let (r, s) := (rtxWanted (fld w 95 80) (fld w 79 64)).foldl (fun (a : Nat × State) (e : Nat × Nat) =>
        let (n, s) := a.2.retransmit lg leg (fld w 127 96) e.2
        (a.1 + n * 4 ^ e.1, s)) (0, s)
      s.pushItem (.lg lg) (fld w 37 18) [BitVec.ofNat 128 (fld w 45 38 * 2 ^ 120 + leg * 2 ^ 102 + fld w 95 80 * 2 ^ 86 + r * 2 ^ 52)]
    | _ => s

/-! ### Buffers and local packets (R106, R112) -/

/-- hold_ms has passed since a buffer's arrival. -/
def State.holdEnds (s : State) (a : Nat) : State :=
  match s.fwd.bufs.get? a with
  | none => s
  | some b =>
    if b.hold && decide (s.upNs ≥ b.arrival + s.holdMs b.lg * 10 ^ 6) then
      s.setFwd { s.fwd with bufs := s.fwd.bufs.put a { b with hold := false } } else s

/-- A buffer given back: to its pool, or its address to ret_q. -/
def State.giveBack (s : State) (a : Nat) (b : Buf) : State :=
  match b.ret with
  | none => s.poolBack b.lg a
  | some q => (s.setFwd { s.fwd with bufs := s.fwd.bufs.del a }).pushItem (.lg b.lg) q [BitVec.ofNat 128 a]

/-- A buffer that nothing holds is released (R112). -/
def State.bufRelease (s : State) (a : Nat) : State :=
  match s.fwd.bufs.get? a with
  | none => s
  | some b => if b.copies = 0 ∧ b.hold = false ∧ b.prog = false ∧ s.feedHolds a = false then s.giveBack a b else s

/-- The next local packet of a link group (R106; 05 R122). -/
def State.localNext (s : State) (lg : Nat) : State :=
  if s.flag F.LNK_LOCAL_QUEUE_en lg = false then s else
    match s.popItem (s.get F.LNK_LOCAL_QUEUE_queue lg) with
    | some (pw :: more, s) =>
      let w1 := more.headD 0
      let st := fld pw 63 44
      let a := fld w1 47 0
      let ago := (s.mtime + 2 ^ 64 - fld pw 127 64) % 2 ^ 64
      let n := fld pw 43 30
      let b : Buf := ⟨lg, if ago < 2 ^ 63 then s.upNs - ago else s.upNs, fld pw 127 64, n, ceilDiv n 512, 1, true, false, some (fld w1 127 108)⟩
      if (s.fwd.streamBlock.get? (lgKey lg st)).isSome then (s.recCount st 7 15 0).giveBack a b
      else ((s.setFwd { s.fwd with bufs := s.fwd.bufs.put a b }).tap lg pw a).toWalk lg ⟨st, pw, a⟩
    | _ => s

end Sys2Proof.Machine
end

