-- ==== Sys2Proof/Machine/PortOps.lean ====
section
/-! DEFINITION. The Ethernet ports (12): enabling and links, gate lists, launch-time queues, transmit selection, PTP
messages as they leave, energy-efficient idle, and the LNK port registers' side effects. -/
namespace Sys2Proof.Machine

/-- The ports part of the state replaced. -/
def State.setPorts (s : State) (p : Ports) : State := { s with ports := p }

/-- A port's number in the device (R51). -/
def portNo (lg port : Nat) : Nat := 32 * lg + port

/-! ### Port types (R291, R292, R312) -/

/-- MAC rate of a port type, Gbit/s. -/
def portRate (type : Nat) : Nat := ([10, 25, 50, 100, 200, 400, 800][type]?).getD 1

/-- Is a combination of type, width code and fec in the table of R292? -/
def portTypeLegal (type width fec : Nat) : Bool :=
  match type with
  | 0 => width == 0 && decide (fec ≤ 1)
  | 1 => width == 0 && decide (fec ≤ 2)
  | 2 => width == 0 && fec == 3
  | 3 => (width == 2 && fec == 2) || (width == 1 && fec == 3) || (width == 0 && fec == 3)
  | 4 => (width == 2 || width == 1) && fec == 3
  | 5 => (width == 3 || width == 2) && fec == 3
  | 6 => width == 3 && fec == 3
  | _ => false

/-- Lanes of a width code. -/
def lanes (width : Nat) : Nat := 2 ^ width

/-- Does an enabled port other than `p` share a lane with a port of `w` lanes at `p` (R291)? -/
def State.lanesTaken (s : State) (lg p w : Nat) : Bool :=
  (List.range 32).any (fun q =>
    q != p && s.flag F.LNK_PORT_CFG_en lg q && decide (q < p + w ∧ p < q + lanes (s.get F.LNK_PORT_CFG_width lg q)))

/-- May a port be enabled with a configuration (R312)? -/
def State.portLegal (s : State) (lg p : Nat) (v : Reg64) : Bool :=
  portTypeLegal (fld v 62 60) (fld v 59 58) (fld v 57 56) && fld v 55 54 != 3 &&
    p % lanes (fld v 59 58) == 0 && decide (p + lanes (fld v 59 58) ≤ 32) && !s.lanesTaken lg p (lanes (fld v 59 58)) &&
    decide (64 ≤ fld v 49 36 ∧ fld v 49 36 ≤ 9216)

/-- Is a port up? -/
def State.portUp (s : State) (lg p : Nat) : Bool := s.flag F.LNK_PORT_CFG_en lg p && s.flag F.LNK_PORT_STAT_link lg p

/-- A change of link is shown and recorded (R312; 16 R382). -/
def State.setLink (s : State) (lg p : Nat) (up : Bool) : State :=
  if s.flag F.LNK_PORT_STAT_link lg p = up then s else
    let s := (s.put F.LNK_PORT_STAT_link (bnat up) lg p).put F.LNK_PORT_STAT_link_evt 1 lg p
    let w := lanes (s.get F.LNK_PORT_CFG_width lg p)
    let s := (List.range w).foldl (fun (s : State) i =>
      (s.put F.LNK_LANE_STAT_signal (bnat up) lg (p + i)).put F.LNK_LANE_STAT_locked (bnat up) lg (p + i)) s
    s.logEv 0x0801 (0x10 + lg) p 4 (snapOf (s.reg .LNK_PORT_STAT lg p) ++ snapOf (s.reg .LNK_PORT_CFG lg p))

/-- The write of LNK_PORT_CFG (R291, R292, R312). DESIGN CHOICE (log 25): a refused write stores its other fields. -/
def State.wrPortCfg (s : State) (lg p : Nat) (v : Reg64) : State :=
  let old := s.reg .LNK_PORT_CFG lg p
  let new := codedWrite RegName.LNK_PORT_CFG.info old v
  let err (s : State) : State := s.put F.LNK_PORT_STAT_cfg_err 1 lg p
  if s.flag F.LNK_PORT_CFG_en lg p then
    if putFld new 63 63 1 ≠ old then err s
    else if bit v 63 then s
    else
      let s := s.put F.LNK_PORT_CFG_en 0 lg p
      ((s.setLink lg p false).put F.LNK_PORT_STAT_lpi_rx 0 lg p).put F.LNK_PORT_STAT_lpi_tx 0 lg p
  else if bit v 63 && !s.portLegal lg p v then err (s.setReg .LNK_PORT_CFG (putFld new 63 63 0) lg p)
  else s.setReg .LNK_PORT_CFG new lg p

/-- Every lane of an enabled port locks while the group's reference clock is present (R293), unless the lanes are idle (18 R412). -/
def State.linkUp (s : State) (lg p : Nat) : State :=
  if s.flag F.LNK_PORT_CFG_en lg p && s.ports.refclk.getD lg false && !s.dark then s.setLink lg p true else s

/-- A port loses link. -/
def State.linkDown (s : State) (lg p : Nat) : State :=
  let s := s.setLink lg p false
  (s.put F.LNK_PORT_STAT_lpi_rx 0 lg p).put F.LNK_PORT_STAT_lpi_tx 0 lg p

/-- A valid REFCLK appears (R293). -/
def State.refclkIn (s : State) (lg : Nat) : State :=
  (s.setPorts { s.ports with refclk := s.ports.refclk.put lg true }).put F.LNK_GRP_STAT_refclk_ok 1 lg

/-- REFCLK is lost: no lane of the group stays locked (R293). -/
def State.refclkOut (s : State) (lg : Nat) : State :=
  let s := (s.setPorts { s.ports with refclk := s.ports.refclk.put lg false }).put F.LNK_GRP_STAT_refclk_ok 0 lg
  (List.range 32).foldl (fun (s : State) p => s.linkDown lg p) s

/-! ### Gate lists (R300-R302) -/

/-- The operational list of a port, all gates open at reset (R300). -/
def State.gate (s : State) (lg p : Nat) : Gate :=
  (s.ports.gates.get? (portNo lg p)).getD
    { en := false, mode := 0, bank := 0, count := 1, cycle := 0, base := 0, cycleAt := 0, entry := 0, entryAt := 0, next := [],
      switchAfter := 0 }

/-- A port's operational list set. -/
def State.setGate (s : State) (lg p : Nat) (g : Gate) : State :=
  s.setPorts { s.ports with gates := s.ports.gates.put (portNo lg p) g }

/-- Index of an entry of a bank among LNK_GCL. -/
def gclNo (p bank e : Nat) : Nat := 512 * p + 256 * bank + e

/-- Interval of an entry of the operational list. -/
def State.gateInterval (s : State) (lg p : Nat) (g : Gate) (e : Nat) : Nat := s.get F.LNK_GCL_interval_ns lg (gclNo p g.bank e)

/-- Gates of an entry of the operational list. -/
def State.gateBits (s : State) (lg p : Nat) (g : Gate) (e : Nat) : Nat := s.get F.LNK_GCL_gates lg (gclNo p g.bank e)

/-- The entry in force from entry `e` on: one of interval 0 is passed over, the last one holds (R300, R302). -/
def State.gateFrom (s : State) (lg p : Nat) (g : Gate) : Nat → Nat → Nat
  | 0, e => e
  | n + 1, e => if e + 1 < g.count ∧ s.gateInterval lg p g e = 0 then s.gateFrom lg p g n (e + 1) else e

/-- Present gate states of a port (R300). -/
def State.gatesNow (s : State) (lg p : Nat) : Nat :=
  let g := s.gate lg p
  if g.en then s.gateBits lg p g g.entry else 0xFF

/-- A cycle begins at m-time `t`. -/
def State.beginCycle (s : State) (lg p : Nat) (g : Gate) (t : Nat) : State :=
  let s := s.setGate lg p { g with cycleAt := t, entryAt := t, entry := s.gateFrom lg p g 256 0 }
  s.bump F.LNK_PORT_GSTAT_cycles 1 lg p

/-- The m-time of the switch asked for: the first cycle start at least 2 us after the request and not before base, in transit mode
the first firing whose message has arrived (R302). -/
def State.switchTime (s : State) (lg p : Nat) : Option Nat :=
  let g := s.gate lg p
  let base := s.get F.LNK_PORT_GBASE_base lg p
  let cycle := s.get F.LNK_PORT_GCTL_cycle_ns lg p
  if s.get F.LNK_PORT_GCTL_mode lg p = 1 then g.next.find? (fun t => decide (g.switchAfter ≤ t ∧ base ≤ t))
  else if cycle = 0 ∨ base ≥ g.switchAfter then some (max base g.switchAfter)
  else some (base + ceilDiv (g.switchAfter - base) cycle * cycle)

/-- The administrative list becomes operational at its switch (R302); firings still to come keep their cycles. -/
def State.gateSwitch (s : State) (lg p : Nat) : State :=
  match s.switchTime lg p with
  | none => s
  | some t =>
    if s.flag F.LNK_PORT_GCTL_change lg p = false ∨ s.mtime < t then s else
      let g := s.gate lg p
      let s1 := s.put F.LNK_PORT_GCTL_change 0 lg p
      let g1 := { g with en := s.flag F.LNK_PORT_GCTL_en lg p, mode := s.get F.LNK_PORT_GCTL_mode lg p, bank := 1 - g.bank,
                         count := clampNat (s.get F.LNK_PORT_GCTL_count lg p) 1 256,
                         cycle := s.get F.LNK_PORT_GCTL_cycle_ns lg p, base := s.get F.LNK_PORT_GBASE_base lg p,
                         next := (g.next.filter (fun x => decide (t ≤ x))).erase t }
      s1.beginCycle lg p g1 t

/-- Is the switch of a port's lists due (R302)? -/
def State.switchDue (s : State) (lg p : Nat) : Bool :=
  s.flag F.LNK_PORT_GCTL_change lg p && ((s.switchTime lg p).map (fun t => decide (t ≤ s.mtime))).getD false

/-- The next event of a running list, if its time has come (R300): the next cycle, or the next entry. -/
def State.listEvent (s : State) (lg p : Nat) : State :=
  let g := s.gate lg p
  let periodic := decide (g.mode = 0 ∧ g.cycle ≠ 0 ∧ s.reached (g.cycleAt + g.cycle))
  if periodic then s.beginCycle lg p g ((g.cycleAt + g.cycle) % 2 ^ 64)
  else
    match g.mode == 1, g.next.find? s.reached with
    | true, some t => s.beginCycle lg p { g with next := g.next.erase t } t
    | _, _ =>
      let t := (g.entryAt + s.gateInterval lg p g g.entry) % 2 ^ 64
      if g.entry + 1 < g.count ∧ s.reached t then
        s.setGate lg p { g with entryAt := t, entry := s.gateFrom lg p g 256 (g.entry + 1) }
      else s

/-- The next gate event of a port, if its time has come (R300): a switch that is due is one (R302). -/
def State.gateEvent (s : State) (lg p : Nat) : State :=
  if s.switchDue lg p then s.gateSwitch lg p else if (s.gate lg p).en then s.listEvent lg p else s

/-- The entries to come of a list, from entry `e`, which begins `d` ns from now, in cycles that end `ends` ns from now: distance, gates,
and whether the end of their cycle is known. One of interval 0 is passed over, a cycle's end truncates (R300, R302). -/
def State.gateAhead (s : State) (lg p : Nat) (g : Gate) : Nat → Nat → Nat → List Nat → List (Nat × Nat × Bool)
  | 0, _, _, _ => []
  | n + 1, e, d, ends =>
    let w := s.gateInterval lg p g e
    match ends with
    | x :: more =>
      if e ≥ g.count ∨ d ≥ x then s.gateAhead lg p g n 0 x more
      else if w = 0 ∧ e + 1 < g.count then s.gateAhead lg p g n (e + 1) d ends
      else (d, s.gateBits lg p g e, true) :: s.gateAhead lg p g n (e + 1) (d + w) ends
    | [] =>
      if e ≥ g.count then []
      else if w = 0 ∧ e + 1 < g.count then s.gateAhead lg p g n (e + 1) d []
      else (d, s.gateBits lg p g e, false) :: s.gateAhead lg p g n (e + 1) (d + w) []

/-- The entries a port sees ahead of the present one (R301): the rest of this cycle and one whole cycle more; in transit mode the
cycles of the firings whose messages have arrived. -/
def State.gatesAhead (s : State) (lg p : Nat) : List (Nat × Nat × Bool) :=
  let g := s.gate lg p
  let since (t : Nat) := (s.mtime + 2 ^ 64 - t) % 2 ^ 64
  let left := s.gateInterval lg p g g.entry - since g.entryAt
  let ends := if g.mode = 0 then [g.cycle - since g.cycleAt, 2 * g.cycle - since g.cycleAt]
    else g.next.map (fun t => (t + 2 ^ 64 - s.mtime) % 2 ^ 64)
  s.gateAhead lg p g (300 * (ends.length + 1)) (g.entry + 1) left ends

/-- How far ahead, in ns, the gate of class `c` closes; none: not within the look-ahead. In transit mode nothing past the present
instant plus lead_ns is taken as open where the firing that ends the cycle is not known (R301). -/
def State.closeIn (s : State) (lg p c : Nat) : Option Nat :=
  let g := s.gate lg p
  let lead := s.get F.MTB_TRANSIT_LEAD_lead_ns
  if g.en = false then none else
    match (s.gatesAhead lg p).find? (fun e => e.2.1.testBit c == false) with
    | some (d, _, known) => some (if g.mode = 0 ∨ known then d else min d lead)
    | none => if g.mode = 0 then none else some lead

/-- Is a frame of class `c` that takes `t` ns a candidate by its gate (R301)? -/
def State.gateAdmits (s : State) (lg p c t : Nat) : Bool :=
  (s.gatesNow lg p).testBit c && ((s.closeIn lg p c).map (fun d => decide (t ≤ d))).getD true

/-- Does setting change fail the conditions of R302? -/
def State.gateRefused (s : State) (lg p : Nat) (en : Bool) (mode count cycle : Nat) : Bool :=
  let bank := 1 - (s.gate lg p).bank
  en && ((mode == 0 && decide (cycle < 2000)) ||
    (List.range (clampNat count 1 256)).all (fun e => s.get F.LNK_GCL_interval_ns lg (gclNo p bank e) == 0))

/-- A dropped write shown in cfg_err. -/
def State.cfgErr (s : State) (lg p : Nat) : State := s.put F.LNK_PORT_STAT_cfg_err 1 lg p

/-- The write of LNK_PORT_GCTL (R302). -/
def State.wrGctl (s : State) (lg p : Nat) (v : Reg64) : State :=
  if s.flag F.LNK_PORT_GCTL_change lg p then s.cfgErr lg p
  else
    let s := s.setReg .LNK_PORT_GCTL (putFld (codedWrite RegName.LNK_PORT_GCTL.info (s.reg .LNK_PORT_GCTL lg p) v) 61 61 0) lg p
    if bit v 61 = false then s
    else if s.gateRefused lg p (bit v 63) (fld v 62 62) (fld v 60 52) (fld v 31 0) then s.cfgErr lg p
    else (s.setGate lg p { s.gate lg p with switchAfter := s.mtime + 2000 }).put F.LNK_PORT_GCTL_change 1 lg p

/-- The write of LNK_PORT_GBASE (R302). -/
def State.wrGbase (s : State) (lg p : Nat) (v : Reg64) : State :=
  if s.flag F.LNK_PORT_GCTL_change lg p then s.cfgErr lg p else s.setReg .LNK_PORT_GBASE v lg p

/-- The write of a gate control entry (R302). -/
def State.wrGcl (s : State) (lg i : Nat) (v : Reg64) : State :=
  let p := i / 512
  if i / 256 % 2 = (s.gate lg p).bank ∨ s.flag F.LNK_PORT_GCTL_change lg p then s.cfgErr lg p
  else s.setReg .LNK_GCL (codedWrite RegName.LNK_GCL.info (s.reg .LNK_GCL lg i) v) lg i

/-- LNK_PORT_GSTAT as it reads. -/
def State.gstatView (s : State) (lg p : Nat) : Reg64 :=
  let g := s.gate lg p
  putFld (putFld (putFld (putFld (s.reg .LNK_PORT_GSTAT lg p) 63 63 (bnat g.en)) 62 62 g.bank) 61 54 (if g.en then g.entry else 0)) 53 46
    (s.gatesNow lg p)

/-! ### Launch-time queues (R303, R304) -/

/-- Index of queue `q` of a port. -/
def ltNo (lg p q : Nat) : Nat := 8 * portNo lg p + q

/-- A launch-time queue. -/
def State.ltQueue (s : State) (lg p q : Nat) : List LtFrame := s.ports.lt.getD (ltNo lg p q) []

/-- A launch-time queue set. -/
def State.setLt (s : State) (lg p q : Nat) (l : List LtFrame) : State :=
  s.setPorts { s.ports with lt := if l.isEmpty then s.ports.lt.del (ltNo lg p q) else s.ports.lt.put (ltNo lg p q) l }

/-- Frames in all launch-time queues of a link group. -/
def State.ltCount (s : State) (lg : Nat) : Nat :=
  (s.ports.lt.filter (fun e => e.1 / 256 == lg)).foldl (fun n e => n + e.2.length) 0

/-- A frame's buffer returned to its ret_q (R304). -/
def State.ltReturn (s : State) (lg : Nat) (f : LtFrame) : State :=
  if f.bytes.isSome then s else s.pushItem (.lg lg) f.retQ [BitVec.ofNat 128 f.addr]

/-- Is a launch time past by more than the queue's tolerance (R303)? -/
def State.pastLaunch (s : State) (lg p q : Nat) (f : LtFrame) : Bool :=
  let d := (s.mtime + 2 ^ 64 - f.launch) % 2 ^ 64
  f.launch != 0 && decide (s.get F.LNK_LT_CFG_late_tol_ns lg (8 * p + q) < d ∧ d < 2 ^ 63)

/-- A late frame counted, and dropped where the queue drops late frames (R303): the frame that stays. -/
def State.countLate (s : State) (lg p q : Nat) (f : LtFrame) : Option LtFrame × State :=
  let s := s.count F.LNK_PORT_CNT1_lt_late 1 lg p
  if s.flag F.LNK_LT_CFG_drop_late lg (8 * p + q) then (none, (s.count F.LNK_PORT_CNT1_lt_drop 1 lg p).ltReturn lg f)
  else (some { f with late := true }, s)

/-- Frames that become the head of a queue: released at launch 0, found late when already past (R303). -/
def State.settleHead (lg p q : Nat) : Nat → State → State
  | 0, s => s
  | n + 1, s =>
    match s.ltQueue lg p q with
    | [] => s
    | f :: rest =>
      if f.launch = 0 then s.setLt lg p q ({ f with released := true } :: rest)
      else if s.pastLaunch lg p q f then
        match s.countLate lg p q { f with released := true } with
        | (some f, s) => s.setLt lg p q (f :: rest)
        | (none, s) => State.settleHead lg p q n (s.setLt lg p q rest)
      else s

/-- A frame enters a launch-time queue, or is dropped (R303, R304, R312). -/
def State.ltEnter (s : State) (lg p q : Nat) (f : LtFrame) : State :=
  if s.flag F.LNK_LT_CFG_en lg (8 * p + q) = false ∨ s.ltCount lg ≥ 4096 then
    (s.count F.LNK_PORT_CNT1_lt_drop 1 lg p).ltReturn lg f
  else
    let l := s.ltQueue lg p q
    let s := s.setLt lg p q (l ++ [f])
    if l.isEmpty then State.settleHead lg p q 1 s else s

/-- The head of a queue released at its launch time (R303). -/
def State.launchRelease (s : State) (lg p q : Nat) : State :=
  match s.ltQueue lg p q with
  | f :: rest => if f.launch ≠ 0 ∧ s.reached f.launch then s.setLt lg p q ({ f with released := true } :: rest) else s
  | [] => s

/-- The head of a queue released by a firing of action 0x5 (R303). -/
def State.launchFired (s : State) (lg p q : Nat) : State :=
  match s.ltQueue lg p q with
  | f :: rest => s.setLt lg p q ({ f with released := true } :: rest)
  | [] => s

/-- A released head found late (R303). -/
def State.launchLate (s : State) (lg p q : Nat) : State :=
  match s.ltQueue lg p q with
  | f :: rest =>
    if f.released && !f.late && s.pastLaunch lg p q f then
      match s.countLate lg p q f with
      | (some f, s) => s.setLt lg p q (f :: rest)
      | (none, s) => State.settleHead lg p q (rest.length + 1) (s.setLt lg p q rest)
    else s
  | [] => s

/-- Does a port exist: is its lane not inside a wider enabled port (R291, R304)? -/
def State.portExists (s : State) (lg p : Nat) : Bool := !(List.range 32).any (fun q =>
  q != p && s.flag F.LNK_PORT_CFG_en lg q && decide (q < p ∧ p < q + lanes (s.get F.LNK_PORT_CFG_width lg q)))

/-- The next item of LNK_TX_QUEUE (R304). -/
def State.txNext (s : State) (lg : Nat) : State :=
  if s.flag F.LNK_TX_QUEUE_en lg = false then s else
    match s.popItem (s.get F.LNK_TX_QUEUE_queue lg) with
    | some (w :: more, s) =>
      let w1 := more.headD 0
      let p := fld w 63 59
      let f : LtFrame := ⟨fld w 127 64, fld w1 47 0, fld w 54 41, fld w 40 21, bit w 55, none, false, false⟩
      if f.len > s.get F.LNK_PORT_CFG_max_frame lg p ∨ s.portExists lg p = false then (s.count F.LNK_TX_CNT_drop 1 lg).ltReturn lg f
      else s.ltEnter lg p (fld w 58 56) f
    | _ => s

/-! ### PTP messages as they leave (02 R49-R51) -/

/-- Is a PTP message an event message? -/
def ptpEvent (msg : List Byte) : Bool := decide (bAt msg 0 % 16 < 4)

/-- Is it a peer delay message? -/
def ptpPeer (msg : List Byte) : Bool := [2, 3, 10].contains (bAt msg 0 % 16)

/-- The frame of a PTP message in the port's transport (R50; log 29), to a unicast requester or the standard's group address;
the port's own IP address is open (log 49). -/
def State.ptpFrame (s : State) (lg p : Nat) (o : PtpOut) : List Byte × State :=
  let mac := s.get F.LNK_PORT_MAC_mac lg p
  let msg := o.msg
  let dport := if ptpEvent msg then 319 else 320
  let to_ (m : Nat) : Nat := (o.dest.map (·.1)).getD m
  let ip (a : Nat) : Nat := (o.dest.map (·.2)).getD a
  match s.get F.MTB_PTP_PORT_transport 0 (portNo lg p) with
  | 0 => (padFrame (ethHead (to_ (if ptpPeer msg then 0x0180C200000E else 0x011B19000000)) mac none 0x88F7 ++ msg), s)
  | 1 =>
    let (x, s) := s.fresh
    (frameOf { dstMac := to_ (if ptpPeer msg then 0x01005E00006B else 0x01005E000181), srcMac := mac, vid := 0, pcp := 0, vlan := false,
               ipv6 := false, src := x % 2 ^ 32, dst := ip (if ptpPeer msg then 0xE000006B else 0xE0000181) % 2 ^ 32, sport := dport,
               dport := dport, dscp := 0, ttl := 1 } msg, s)
  | _ =>
    let (x, s) := s.fresh
    (frameOf { dstMac := to_ (if ptpPeer msg then 0x33330000006B else 0x333300000181), srcMac := mac, vid := 0, pcp := 0, vlan := false,
               ipv6 := true, src := x % 2 ^ 128, dst := ip (if ptpPeer msg then 0xFF02 * 2 ^ 112 + 0x6B else 0xFF0E * 2 ^ 112 + 0x181) % 2 ^ 128,
               sport := dport, dport := dport, dscp := 0, ttl := 1 } msg, s)

/-- A message with the times it takes at launch (R49): originTimestamp of a one-step Sync, the turnaround of a one-step
Pdelay_Resp; `rx` is the receipt time of what it answers, 2^-16 ns. -/
def State.ptpStamped (s : State) (no rx : Nat) (msg : List Byte) : List Byte :=
  let tx := s.txStamp no
  let two := bAt msg 6 / 2 % 2 == 1
  match bAt msg 0 % 16, two with
  | 0, false => patch (patch msg 8 (beBytes 8 (tx % 2 ^ 16))) 34 (ptpTime tx)
  | 3, false =>
    let t := s.fineMoved (signed 32 (s.get F.MTB_ASYM_tx_delay 0 no))
    patch msg 8 (beBytes 8 (netAt msg 8 8 + t + 2 ^ 64 - rx % 2 ^ 64))
  | _, _ => msg

/-- The message that follows a two-step one: Follow_Up or Pdelay_Resp_Follow_Up (R49). -/
def State.ptpFollow (s : State) (no : Nat) (o : PtpOut) : State :=
  let msg := o.msg
  let tx := s.txStamp no
  let seq := netAt msg 30 2
  if bAt msg 6 / 2 % 2 = 0 then s
  else match bAt msg 0 % 16 with
    | 0 => s.ptpQueue no (s.ptpMsg no 0x08 0 seq (bAt msg 33) (beBytes 8 (tx % 2 ^ 16)) (ptpTime tx))
    | 3 => s.ptpQueue no (s.ptpMsg no 0x0A 0 seq 0x7F (beBytes 8 (o.corr + tx % 2 ^ 16)) (ptpTime tx ++ slice msg 44 10))
    | _ => s

/-! ### Transmit selection (R297-R299; 04 R110, R111) -/

/-- Duration of a frame of `n` bytes through the FCS (R298). -/
def State.txTime (s : State) (lg p n : Nat) : Nat := ceilDiv ((n + 20) * 8) (portRate (s.get F.LNK_PORT_CFG_type lg p)) + 4

/-- The earliest launch, in ns from now, of an unreleased head of a queue with hold, of those whose launch lies before `own` where that
is the launch of a held head itself: of several held heads the earlier launch wins (R298). -/
def State.heldNext (s : State) (lg p : Nat) (own : Option Nat) : Option Nat :=
  (List.range 8).foldl (fun (b : Option Nat) q =>
    match s.flag F.LNK_LT_CFG_hold lg (8 * p + q), s.ltQueue lg p q with
    | true, f :: _ =>
      if f.released ∨ (own.map (fun t => decide (t ≤ f.launch))).getD false = true then b else
        let d := (f.launch + 2 ^ 64 - s.mtime) % 2 ^ 64
        some (match b with | none => d | some x => min x d)
    | _, _ => b) none

/-- May a frame of class `c` and `n` bytes through the FCS start now (R298, R301)? `own`: the launch time of a held head. -/
def State.maySend (s : State) (lg p c n : Nat) (own : Option Nat := none) : Bool :=
  let t := s.txTime lg p n
  s.gateAdmits lg p c t && ((s.heldNext lg p own).map (fun d => decide (t ≤ d))).getD true

/-- A frame starts: its bytes with the FCS leave, and the port is busy for its duration. -/
def State.transmit (s : State) (lg p : Nat) (f : List Byte) : State :=
  let t := s.txTime lg p (f.length + 4)
  let s := s.setPorts { s.ports with busy := s.ports.busy.put (portNo lg p) (s.upNs + t), active := s.ports.active.put (portNo lg p) (s.upNs + t) }
  s.emit (.frame lg p (f ++ fcsOf f))

/-- What a port may start. -/
inductive Choice where
  | ptp
  | launch (q : Nat)
  | copy (leg how legHow : Nat)
  deriving DecidableEq, Repr

/-- Does the PTP message at the head of a port go now? -/
def State.ptpReady (s : State) (lg p : Nat) : Bool :=
  match s.ports.ptp.getD (portNo lg p) [] with
  | o :: _ =>
    let n := (s.ptpFrame lg p o).1.length + 4
    decide (o.due ≤ s.nanos) && s.maySend lg p (s.get F.LNK_PORT_CFG_ptp_class lg p) n
  | [] => false

/-- The launch time of a queue's head where the queue holds (R298). -/
def State.heldLaunch (s : State) (lg p q : Nat) : Option Nat :=
  if s.flag F.LNK_LT_CFG_hold lg (8 * p + q) then (s.ltQueue lg p q).head?.map (·.launch) else none

/-- The launch-time head that goes now, from the highest queue down; of several held heads the earlier launch (R298). -/
def State.launchReady (s : State) (lg p : Nat) : Option Nat :=
  let ready := ((List.range 8).map (7 - ·)).filter (fun q =>
    match s.ltQueue lg p q with
    | f :: _ => f.released && s.maySend lg p q (max 60 f.len + 4) (s.heldLaunch lg p q)
    | [] => false)
  match ready with
  | [] => none
  | q :: rest =>
    if (s.heldLaunch lg p q).isNone then some q
    else some (rest.foldl (fun b x =>
      match s.heldLaunch lg p b, s.heldLaunch lg p x with
      | some tb, some tx => if tx < tb then x else b
      | _, _ => b) q)

/-- The legs of a class that wait at a port, in service order after the one served last. -/
def State.legsOf (s : State) (lg p c : Nat) : List Nat :=
  let mine := ((s.fwd.legQ.filter (fun e => e.1 / 2 ^ 20 == lg)).map (fun e => e.1 % 2 ^ 20)).filter (fun l =>
    let w2 := s.word (s.legAddr l + 32)
    fld w2 19 15 == p && fld w2 14 12 == c)
  let last := s.fwd.turn.getD (8 * portNo lg p + c) 262144
  mine.filter (fun l => decide (l > last)) ++ mine.filter (fun l => decide (l ≤ last))

/-- The eligibility of a leg's head and of its class for that frame (R110): class, leg, bytes without FCS. -/
def State.headState (s : State) (lg p c l : Nat) : Option (Nat × Nat × Nat) :=
  match s.legQueue lg l with
  | [] => none
  | x :: _ =>
    let n := s.copyLen x
    let m := charged n (s.get F.LNK_EGR_CTRL_overhead lg)
    let cir := s.legCfg l 3 127 100
    some ((s.classBucket lg p c).eligible (s.classRates lg (8 * p + c)).1 (s.classRates lg (8 * p + c)).2 m,
      (s.legBucket l).eligible cir (peakRate cir (s.legCfg l 3 99 72)) m, n)

/-- The leg a pass finds: class state `ch`, leg state `lh` (R111). -/
def State.passFinds (s : State) (lg p ch lh : Nat) : Option Choice :=
  ((List.range 8).map (7 - ·)).findSome? (fun c =>
    (s.legsOf lg p c).findSome? (fun l =>
      match s.headState lg p c l with
      | some (a, b, n) => if a = ch ∧ b = lh ∧ s.maySend lg p c (n + 4) then some (.copy l ch lh) else none
      | none => none))

/-- What an idle port starts (R298). -/
def State.choose (s : State) (lg p : Nat) : Option Choice :=
  if s.ptpReady lg p then some .ptp
  else match s.launchReady lg p with
    | some q => some (.launch q)
    | none => [(2, 2), (2, 1), (1, 2), (1, 1)].findSome? (fun e => s.passFinds lg p e.1 e.2)

/-- The PTP message at a port's head leaves. -/
def State.sendPtp (s : State) (lg p : Nat) : State :=
  let no := portNo lg p
  match s.ports.ptp.getD no [] with
  | [] => s
  | o :: rest =>
    let s := s.setPorts { s.ports with ptp := s.ports.ptp.put no rest }
    let (f, s) := s.ptpFrame lg p { o with msg := s.ptpStamped no o.rx o.msg }
    (s.ptpFollow no o).transmit lg p f

/-- The transmit timestamp of a launch-time frame that asks for it (R304; 02 R49): the PTP message it carries. -/
def State.stampLaunch (s : State) (lg p : Nat) (f : List Byte) : State :=
  let msg := if netAt f (etOffset f) 2 = 0x88F7 then f.drop (etOffset f + 2)
    else match parse f with
      | .fast r => f.drop r.pay
      | _ => f.drop (etOffset f + 2 + (if netAt f (etOffset f) 2 = 0x86DD then 48 else 28))
  s.pushPtp (portNo lg p) (s.txStamp (portNo lg p)) msg

/-- The launch-time head of a queue leaves, or is dropped where a tile fails (R304); answers whether it left. -/
def State.sendLaunch (s : State) (lg p q : Nat) : Bool × State :=
  match s.ltQueue lg p q with
  | [] => (false, s)
  | f :: rest =>
    let next (s : State) : State := State.settleHead lg p q (rest.length + 1) (s.setLt lg p q rest)
    match f.bytes with
    | some b => (true, (next s).transmit lg p (padFrame b))
    | none =>
      let (s, bad) := s.verifyBy (.lg lg) .other (ceilDiv f.len 512) f.addr
      if bad.isEmpty then
        let b := padFrame (s.rd f.addr f.len)
        let s := (next s).transmit lg p b
        let s := if f.ptpTs then s.stampLaunch lg p b else s
        (true, s.ltReturn lg f)
      else (false, ((next s).count F.LNK_TX_CNT_crc_fail 1 lg).ltReturn lg f)

/-- A leg's head copy leaves, or is dropped because it cannot be built; answers whether it left (R105, R110). -/
def State.sendCopy (s : State) (lg p l how legHow : Nat) : Bool × State :=
  match s.legQueue lg l with
  | [] => (false, s)
  | c :: rest =>
    let cls := fld (s.word (s.legAddr l + 32)) 14 12
    let n := charged (s.copyLen c) (s.get F.LNK_EGR_CTRL_overhead lg)
    let legB := (s.legBucket l).debit legHow n
    let clsB := (s.classBucket lg p cls).debit how n
    let s := State.ageHeads lg l rest.length (s.setLegQueue lg l rest)
    match s.buildCopy lg c with
    | (none, s) => (false, s.copyDone c.buf)
    | (some f, s) =>
      let s := (s.sentCopy c (f.length + 4)).setLegBucket l legB
      let s := s.setFwd { s.fwd with
        classB := s.fwd.classB.put (8 * portNo lg p + cls) clsB, turn := s.fwd.turn.put (8 * portNo lg p + cls) l }
      (true, s.transmit lg p f)

/-- A choice carried out; answers whether a frame started. -/
def State.carryOut (s : State) (lg p : Nat) : Choice → Bool × State
  | .ptp => (true, s.sendPtp lg p)
  | .launch q => s.sendLaunch lg p q
  | .copy l how legHow => s.sendCopy lg p l how legHow

/-- An idle port starts a frame: choices that turn out dropped are followed by the next (`n` bounds them). -/
def State.startFrame (lg p : Nat) : Nat → State → State
  | 0, s => s
  | n + 1, s =>
    match s.choose lg p with
    | none => s
    | some c =>
      let (sent, s) := s.carryOut lg p c
      if sent then s else State.startFrame lg p n s

/-- The frame of a port that is down which it would start is dropped instead; the queues keep their order (R299). -/
def State.dropDown (s : State) (lg p : Nat) : State :=
  let cnt (s : State) : State := s.count F.LNK_PORT_CNT1_tx_down 1 lg p
  match s.choose lg p with
  | none => s
  | some .ptp => cnt (s.setPorts { s.ports with ptp := s.ports.ptp.put (portNo lg p) (s.ports.ptp.getD (portNo lg p) []).tail })
  | some (.launch q) =>
    match s.ltQueue lg p q with
    | f :: rest => cnt (State.settleHead lg p q (rest.length + 1) ((s.setLt lg p q rest).ltReturn lg f))
    | [] => s
  | some (.copy l _ _) =>
    match s.legQueue lg l with
    | c :: rest => cnt (State.ageHeads lg l rest.length ((s.setLegQueue lg l rest).copyDone c.buf))
    | [] => s

/-- Frames that wait at a port, a bound for its choices. -/
def State.waitingAt (s : State) (lg : Nat) : Nat := s.queuedAt lg + s.ltCount lg + 2

/-- PORT_FRAME_START: a port that is idle and awake starts a frame; a gate event of this instant comes first (R298-R300, R305). -/
def State.portStart (s : State) (lg p : Nat) : State :=
  let no := portNo lg p
  if s.upNs < s.ports.busy.getD no 0 ∨ s.upNs < s.ports.wake.getD no 0 ∨ s.flag F.LNK_PORT_STAT_lpi_tx lg p then s
  else
    let s := s.gateEvent lg p
    if s.portUp lg p then State.startFrame lg p (s.waitingAt lg) s else s.dropDown lg p

/-! ### Energy-efficient idle (R305) -/

/-- Is LPI supported on a port's type (R305)? -/
def State.lpiType (s : State) (lg p : Nat) : Bool :=
  let phy := s.get F.LNK_PORT_CFG_phy lg p
  match s.get F.LNK_PORT_CFG_type lg p with
  | 0 => phy == 2
  | 1 => phy == 1 || phy == 2
  | 3 => s.get F.LNK_PORT_CFG_width lg p == 2 && (phy == 1 || phy == 2)
  | _ => false

/-- Does a gate open among the entries ahead within `w` ns, `bits` being the gates before them? -/
def opensAhead (w : Nat) : Nat → List (Nat × Nat × Bool) → Bool
  | _, [] => false
  | bits, (d, b, _) :: rest =>
    decide (d ≤ w) && ((List.range 8).any (fun c => b.testBit c && !bits.testBit c) || opensAhead w b rest)

/-- Does a scheduled event of a port fall within `w` ns (R305)? -/
def State.eventWithin (s : State) (lg p w : Nat) : Bool :=
  let gates := (s.gate lg p).en && opensAhead w (s.gatesNow lg p) (s.gatesAhead lg p)
  let heads := (List.range 8).any (fun q =>
    match s.ltQueue lg p q with
    | f :: _ => f.released || decide ((f.launch + 2 ^ 64 - s.mtime) % 2 ^ 64 ≤ w)
    | [] => false)
  let ptp := (s.ports.ptp.getD (portNo lg p) []).any (fun e => decide (e.due ≤ s.nanos + w)) ||
    (s.get F.MTB_PTP_PORT_role 0 (portNo lg p) == 1 && s.ptpSends (portNo lg p) &&
      decide (s.syncPeriod (portNo lg p) - s.nanos % s.syncPeriod (portNo lg p) ≤ w))
  gates || heads || ptp

/-- The span of R305: Tw_sys_tx + 1 us. -/
def State.wakeSpan (s : State) (lg p : Nat) : Nat := (s.get F.LNK_PORT_EEE_tw_tx_us lg p + 1) * 1000

/-- Does a leg frame wait at a port? -/
def State.legWaits (s : State) (lg p : Nat) : Bool := (List.range 8).any (fun c => !(s.legsOf lg p c).isEmpty)

/-- The transmitter enters LPI (R305); `k` is the state with the events that become known in the same cycle, which suppress it. -/
def State.lpiEnter (s : State) (lg p : Nat) (k : State) : State :=
  let no := portNo lg p
  let idle := max 1 (s.get F.LNK_PORT_EEE_idle_us lg p) * 1000
  if s.portUp lg p && s.flag F.LNK_PORT_EEE_en lg p && s.lpiType lg p && decide (s.upNs ≥ s.ports.active.getD no 0 + idle) &&
      !k.eventWithin lg p (s.wakeSpan lg p) && !k.legWaits lg p then s.put F.LNK_PORT_STAT_lpi_tx 1 lg p
  else s

/-- A port in LPI begins to wake (R305): it may send Tw_sys_tx later. -/
def State.lpiWake (s : State) (lg p : Nat) : State :=
  if s.flag F.LNK_PORT_STAT_lpi_tx lg p && (s.eventWithin lg p (s.wakeSpan lg p) || s.legWaits lg p) then
    let s := s.put F.LNK_PORT_STAT_lpi_tx 0 lg p
    s.setPorts { s.ports with wake := s.ports.wake.put (portNo lg p) (s.upNs + s.get F.LNK_PORT_EEE_tw_tx_us lg p * 1000) }
  else s

/-- The link partner enters or leaves LPI (R305). -/
def State.lpiIn (s : State) (lg p : Nat) (enter : Bool) : State :=
  if s.portUp lg p then s.put F.LNK_PORT_STAT_lpi_rx (bnat enter) lg p else s

/-! ### Firings at a port (02 R59; R300, R303) -/

/-- Link group and port of a firing's operand. -/
def firingPort (operand : Nat) : Nat × Nat := (operand / 512 % 16, operand / 16 % 32)

/-- A firing of action 0x4: a cycle of a transit-mode list begins at its trigger, or on arrival where its message comes late (02 R57).
Firings that wait stand in the order of their triggers. -/
def State.openCycle (s : State) (f : Firing) : State :=
  let (lg, p) := firingPort f.operand
  let g := s.gate lg p
  let t := if f.late then s.mtime else f.trigger
  let held := if (g.en && g.mode == 1) || s.flag F.LNK_PORT_GCTL_change lg p then g.next else g.next.filter (fun x => !s.reached x)
  s.setGate lg p { g with next := held.takeWhile (fun x => decide (x ≤ t)) ++ t :: held.dropWhile (fun x => decide (x ≤ t)) }

end Sys2Proof.Machine
end

