-- ==== Sys2Proof/Machine/Surface.lean ====
section
/-! DEFINITION. Surfaces: the planar and sheet layouts of pictures in memory (05 R129, R130; 07 R189, R196), reading and
writing them, and the blending of samples (07 R191). -/
namespace Sys2Proof.Machine

/-- A surface format: sheet or planar, sample depth, chroma subsampling, a sheet's format code and tiles per block. -/
structure SurfFmt where
  sheet : Bool
  ten : Bool
  sx : Nat
  sy : Nat
  code : Nat
  k : Nat
  deriving DecidableEq, Repr

/-- The YCbCr formats 0 to 11 of src_fmt and out_fmt (07 R189, R196). -/
def surfFmt (n : Nat) : SurfFmt :=
  let ten := n % 2 == 1
  match n / 2 with
  | 0 => ⟨true, ten, 2, 2, 1 + n % 2, 1⟩
  | 1 => ⟨false, ten, 2, 2, 0, 0⟩
  | 2 => ⟨false, ten, 2, 1, 0, 0⟩
  | 3 => ⟨false, ten, 1, 1, 0, 0⟩
  | 4 => ⟨true, ten, 2, 1, 3 + n % 2, 2⟩
  | _ => ⟨true, ten, 1, 1, 5 + n % 2, 2⟩

/-- Bytes of a row of `w` samples, padded to whole tiles (05 R130). -/
def pitchOf (f : SurfFmt) (w : Nat) : Nat := ceilDiv (w * (if f.ten then 2 else 1)) 512 * 512

/-- Sheet blocks of a picture. -/
def sheetBlocks (w h : Nat) : Nat := ceilDiv w 32 * ceilDiv h 8

/-- Tiles of a YCbCr surface. -/
def surfTiles (f : SurfFmt) (w h : Nat) : Nat :=
  if f.sheet then f.k * sheetBlocks w h
  else (pitchOf f w * h + 2 * (pitchOf f (ceilDiv w f.sx) * ceilDiv h f.sy)) / 512

/-- Tiles of a source surface, the RGBA8 formats 12 and 13 among them (07 R189). -/
def srcTiles (n w h : Nat) : Nat :=
  if n = 12 then ceilDiv (4 * w) 512 * h
  else if n = 13 then 3 * sheetBlocks w h
  else surfTiles (surfFmt n) w h

/-- Is every tile of a range guarded? -/
def State.allGuarded (s : State) (a n : Nat) : Bool := (List.range n).all (fun i => s.guarded (a + 512 * i))

/-- A sample taken from one depth to the other (05 R130, 06 R159). -/
def depthTo (fromTen toTen : Bool) (v : Nat) : Nat :=
  if fromTen && !toTen then min 255 ((v + 2) / 4) else if !fromTen && toTen then 4 * v else v

/-- A plane: rows of samples. -/
abbrev Plane := List (List Nat)

/-- Are the rows of a plane as many and as long as they should be? -/
def planeFits (p : List (List Nat)) (w h : Nat) : Bool := p.length == h && p.all (fun r => r.length == w)

/-- A sample of a plane; beyond an edge, the last column or row. -/
def Plane.at (p : Plane) (x y : Nat) : Nat :=
  let row := (p[min y (p.length - 1)]?).getD []
  (row[min x (row.length - 1)]?).getD 0

/-- A run of samples as a sheet packs it (05 R129). -/
def packRun (ten : Bool) (r : List Nat) : List Byte :=
  if ten then
    let n := r.zipIdx.foldl (fun n e => n + e.1 % 1024 * 2 ^ (10 * e.2)) 0
    leBytes (r.length * 10 / 8) n
  else r.map (BitVec.ofNat 8)

/-- A block's part of a plane, row-major. -/
def blockRun (p : Plane) (x0 y0 bw bh : Nat) : List Nat :=
  (List.range bh).flatMap (fun j => (List.range bw).map (fun i => p.at (x0 + i) (y0 + j)))

/-- The bytes of a sheet block (05 R129; 07 R189), whole tiles; `ts` is the header's RTP timestamp. -/
def sheetBlock (f : SurfFmt) (w h ts : Nat) (y cb cr : Plane) (bx bY : Nat) : List Byte :=
  let edge := if 32 * bx + 32 > w ∨ 8 * bY + 8 > h then 4 else 0
  let cw := 32 / f.sx
  let ch := 8 / f.sy
  let b := leBytes 2 f.code ++ leBytes 1 edge ++ leBytes 1 0 ++ leBytes 4 ts ++ leBytes 8 0 ++
    packRun f.ten (blockRun y (32 * bx) (8 * bY) 32 8) ++ packRun f.ten (blockRun cb (cw * bx) (ch * bY) cw ch) ++
    packRun f.ten (blockRun cr (cw * bx) (ch * bY) cw ch)
  b ++ List.replicate (512 * f.k - b.length) 0

/-- A row of a plane in its pitch: the last sample repeated (05 R130). -/
def packRow (f : SurfFmt) (w : Nat) (row : List Nat) : List Byte :=
  let n := pitchOf f w / (if f.ten then 2 else 1)
  (List.range n).flatMap (fun i => leBytes (if f.ten then 2 else 1) ((row[min i (row.length - 1)]?).getD 0))

/-- The bytes of a picture in a format. -/
def packSurface (f : SurfFmt) (w h ts : Nat) (y cb cr : Plane) : List Byte :=
  if f.sheet then
    (List.range (sheetBlocks w h)).flatMap (fun i => sheetBlock f w h ts y cb cr (i % ceilDiv w 32) (i / ceilDiv w 32))
  else y.flatMap (packRow f w) ++ cb.flatMap (packRow f (ceilDiv w f.sx)) ++ cr.flatMap (packRow f (ceilDiv w f.sx))

/-- The byte offset and the bit within it of a sample of component `c` (0 Y, 1 Cb, 2 Cr) of a surface. -/
def samplePlace (f : SurfFmt) (w h c x y : Nat) : Nat × Nat :=
  if f.sheet then
    let bw := if c = 0 then 32 else 32 / f.sx
    let bh := if c = 0 then 8 else 8 / f.sy
    let block := ceilDiv w 32 * (y / bh) + x / bw
    let chroma := (32 / f.sx) * (8 / f.sy)
    let before := if c = 0 then 0 else 256 + (c - 1) * chroma
    let i := before + y % bh * bw + x % bw
    let bits := if f.ten then 10 * i else 8 * i
    (512 * f.k * block + 16 + bits / 8, bits % 8)
  else
    let py := pitchOf f w
    let pc := pitchOf f (ceilDiv w f.sx)
    let ch := ceilDiv h f.sy
    let b := if f.ten then 2 else 1
    (if c = 0 then py * y + b * x else py * h + (c - 1) * (pc * ch) + pc * y + b * x, 0)

/-- A sample of a surface in memory; none where its tile fails its checksum. -/
def State.sampleAt (s : State) (f : SurfFmt) (base w h c x y : Nat) : Option Nat :=
  let (o, b) := samplePlace f w h c x y
  let n := if f.ten then 2 else 1
  if s.verifies (base + o) && s.verifies (base + o + n - 1) then
    some (leNat (s.rd (base + o) n) / 2 ^ b % (if f.ten then 1024 else 256))
  else none

/-- The alpha of a sample: ⌊alpha * pa / 255 + 0.5⌋ (07 R191). -/
def alphaOf (alpha pa : Nat) : Nat := (2 * alpha * pa + 255) / 510

/-- A sample over another (07 R191). -/
def blend (a src dst : Nat) : Nat := (a * src + (255 - a) * dst + 127) / 255

/-- The mean of some alphas, rounded half up (07 R191). -/
def meanUp (l : List Nat) : Nat := if l.isEmpty then 0 else (2 * l.foldl (· + ·) 0 + l.length) / (2 * l.length)

end Sys2Proof.Machine
end

