-- ==== Sys2Proof/Machine/PacketOps.lean ====
section
/-! DEFINITION. The packetisers (12 R306-R309): flow records and commands, ST 2110-20 packets of a canvas frame, and
packets handed over with their launch times. -/
namespace Sys2Proof.Machine

/-- The address of a flow record (R306). -/
def State.flowAddr (s : State) (lg f : Nat) : Nat := s.get F.LNK_PKT_BASE_base lg * 2 ^ 20 + 128 * f

/-- Key of a flow. -/
def flowKey (lg f : Nat) : Nat := 256 * lg + f

/-- A flow. -/
def State.pktFlow (s : State) (lg f : Nat) : PktFlow := (s.ports.flows.get? (flowKey lg f)).getD ⟨false, [], []⟩

/-- A flow set. -/
def State.setFlow (s : State) (lg f : Nat) (x : PktFlow) : State :=
  s.setPorts { s.ports with flows := s.ports.flows.put (flowKey lg f) x }

/-- Word `i` of a flow as last read. -/
def PktFlow.word (x : PktFlow) (i : Nat) : Word := (x.words[i]?).getD 0

/-- May a record be enabled (R306; the pgroup is not known yet: log 54)? -/
def State.flowLegal (s : State) (lg : Nat) (ws : List Word) : Bool :=
  let x : PktFlow := ⟨false, ws, []⟩
  let w6 := x.word 6
  let pay := fld w6 113 103
  let video := fld w6 126 125 == 0
  decide (fld w6 126 125 ≤ 1) &&
    (!video || (decide (180 ≤ pay ∧ pay ≤ 1440) && (pay % 4 == 0 || pay % 5 == 0))) &&
    (!video || bit w6 124 || (fld w6 102 91 != 0 && decide (fld w6 102 91 ≤ fld w6 90 79))) &&
    s.portExists lg (fld (x.word 4) 15 11) && (!bit w6 127 || s.portExists lg (fld (x.word 5) 15 11))

/-- A packetiser command reported. -/
def State.pktReport (s : State) (lg ticket result : Nat) : State :=
  let s := (s.put F.LNK_PKT_STAT_ticket ticket lg).put F.LNK_PKT_STAT_result result lg
  if result = 1 then s.bump F.LNK_PKT_STAT_done 1 lg else s

/-- The write of LNK_PKT_CMD, served as it arrives (R306; log 53). -/
def State.wrPktCmd (s : State) (lg : Nat) (v : Reg64) : State :=
  let t := fld v 59 52
  let f := fld v 7 0
  let x := s.pktFlow lg f
  match fld v 63 60 with
  | 1 =>
    let ws := s.words (s.flowAddr lg f) 7
    if s.flowLegal lg ws then (s.setFlow lg f { x with enabled := true, words := ws }).pktReport lg t 1
    else s.pktReport lg t 3
  | 2 => (s.setFlow lg f { x with enabled := false, vids := [] }).pktReport lg t 1
  | 3 => (s.setFlow lg f (if x.enabled then { x with words := s.words (s.flowAddr lg f) 7 } else x)).pktReport lg t 1
  | _ => s.pktReport lg t 3

/-- The write of LNK_PKT_BASE: only while no flow of the group is enabled (R312). -/
def State.wrPktBase (s : State) (lg : Nat) (v : Reg64) : State :=
  if (List.range 256).any (fun f => (s.pktFlow lg f).enabled) then s else s.put F.LNK_PKT_BASE_base (fld v 47 20) lg

/-- The addressing of a path of a flow: A (0) or B (1) (R306). -/
def State.flowAddress (s : State) (lg : Nat) (x : PktFlow) (path : Nat) : Address :=
  let w := x.word (4 + path)
  { dstMac := fld w 95 48, srcMac := s.get F.LNK_PORT_MAC_mac lg (fld w 15 11), vid := fld w 47 36, pcp := fld w 35 33, vlan := bit w 32,
    ipv6 := bit w 31, src := (x.word (2 * path + 1)).toNat, dst := (x.word (2 * path)).toNat, sport := fld w 111 96,
    dport := fld w 127 112, dscp := fld w 29 24, ttl := fld w 23 16 }

/-- A packet queued on one path of a flow; released where its launch time has come. -/
def State.queuePath (s : State) (lg : Nat) (x : PktFlow) (launch : Nat) (rtp : List Byte) (path : Nat) : State :=
  let f := frameOf (s.flowAddress lg x path) rtp
  let l := if launch = 0 then 1 else launch
  s.ltEnter lg (fld (x.word (4 + path)) 15 11) (fld (x.word 6) 123 121) ⟨l, 0, f.length, noQueue, false, some f, s.reached l, false⟩

/-- A packet handed to a flow (R306, R308, R309): on path A, and on path B with dup_en; dropped where it is disabled. -/
def State.handPacket (s : State) (lg f launch : Nat) (rtp : List Byte) : State :=
  let x := s.pktFlow lg f
  if x.enabled = false then s.count F.LNK_TX_CNT_drop 1 lg else
    let a := s.flowAddr lg f + 112
    let s := s.putWord a 95 64 (fld (s.word a) 95 64 + 1)
    let s := s.queuePath lg x launch rtp 0
    if bit (x.word 6) 127 then s.queuePath lg x launch rtp 1 else s

/-! ### Video (R307) -/

/-- Bytes and pixels of a pgroup of an out_fmt. -/
def pgroup (fmt : Nat) : Nat × Nat :=
  if fmt = 7 ∨ fmt = 11 then (15, 4) else if fmt % 2 = 1 then (5, 2) else (4, 2)

/-- Packets of a frame of `w` by `h` samples (R307). -/
def vidPackets (x : PktFlow) (v : Vid) : Nat :=
  let (b, p) := pgroup v.fmt
  ceilDiv (v.w * v.h) (fld (x.word 6) 113 103 / b * p)

/-- The release time of packet j (R307), whole ns since the epoch. -/
def vidTime (x : PktFlow) (v : Vid) : Nat :=
  let n := vidPackets x v
  let w6 := x.word 6
  let span := if bit w6 124 then v.j * v.den / (v.num * n) else v.j * (v.den * fld w6 102 91 / (v.num * fld w6 90 79)) / n
  v.start + fld w6 31 0 + span

/-- A sample of a frame handed over. -/
def vidSample (v : Vid) (c x y : Nat) : Nat :=
  let f := surfFmt v.fmt
  let (o, b) := samplePlace f v.w v.h c x y
  leNat (slice v.data o (if f.ten then 2 else 1)) / 2 ^ b % (if f.ten then 1024 else 256)

/-- The samples of a pgroup at a pixel, in the order of ST 2110-20. -/
def pgSamples (v : Vid) (x y : Nat) : List Nat :=
  let g (c x : Nat) := vidSample v c x y
  if (surfFmt v.fmt).sx = 1 then (List.range 4).flatMap (fun i => [g 1 (x + i), g 0 (x + i), g 2 (x + i)])
  else [g 1 (x / 2), g 0 x, g 2 (x / 2), g 0 (x + 1)]

/-- Samples packed most significant bit first. -/
def packNet (ten : Bool) (l : List Nat) : List Byte :=
  let k := if ten then 10 else 8
  beBytes (l.length * k / 8) (l.foldl (fun n x => n * 2 ^ k + x) 0)

/-- The rows that `n` pixels from pixel `p` of a frame of width `w` take: row, offset, pixels. -/
def rowParts (w : Nat) : Nat → Nat → Nat → List (Nat × Nat × Nat)
  | 0, _, _ => []
  | k + 1, p, n =>
    let here := min n (w - p % w)
    if n = 0 ∨ w = 0 then [] else (p / w, p % w, here) :: rowParts w k (p + here) (n - here)

/-- The payload of packet j: extended sequence, row headers, samples (R307). -/
def vidPayload (x : PktFlow) (v : Vid) (ext : Nat) : List Byte :=
  let (b, px) := pgroup v.fmt
  let n := fld (x.word 6) 113 103 / b * px
  let parts := rowParts v.w (n / 64 + 2) (v.j * n) (min n (v.w * v.h - v.j * n))
  let ten := v.fmt % 2 == 1
  let heads := parts.zipIdx.flatMap (fun (e : (Nat × Nat × Nat) × Nat) =>
    beBytes 2 (e.1.2.2 / px * b) ++ beBytes 2 (e.1.1 % 2 ^ 15) ++ beBytes 2 (bnat (e.2 + 1 < parts.length) * 2 ^ 15 + e.1.2.1 % 2 ^ 15))
  let data := parts.flatMap (fun e => (List.range (e.2.2 / px)).flatMap (fun i => packNet ten (pgSamples v (e.2.1 + px * i) e.1)))
  beBytes 2 ext ++ heads ++ data

/-- VIDEO_PACKET_RELEASE: packet j of the oldest frame of a flow goes to its launch-time queues with its release time as
launch time (R307, R309); none while the raster of its canvas has no boundaries, or its composer is halted (07 R180, R199). -/
def State.videoNext (s : State) (lg f : Nat) : State :=
  let x := s.pktFlow lg f
  match x.enabled, x.vids with
  | true, v :: rest =>
    if s.flag F.MTB_STATUS_run = false ∨ (s.raster v.raster).isNone ∨ s.get F.CMP_STATUS_state v.cmp = 3 then s else
    let n := vidPackets x v
    let a := s.flowAddr lg f + 112
    let w7 := s.word a
    let w6 := x.word 6
    let seq := fld w7 127 112
    let ts := v.bn * 90000 / 10 ^ 9
    let rtp := beBytes 1 0x80 ++ beBytes 1 (bnat (v.j + 1 == n) * 128 + fld w6 120 114) ++ beBytes 2 seq ++ beBytes 4 ts ++
      beBytes 4 (fld w6 63 32) ++ vidPayload x v (fld w7 111 96)
    let s := s.putWord a 127 96 ((seq + 1) % 65536 * 65536 + (fld w7 111 96 + (if seq = 65535 then 1 else 0)) % 65536)
    let s := s.setFlow lg f { x with vids := if v.j + 1 ≥ n then rest else { v with j := v.j + 1 } :: rest }
    s.handPacket lg f (vidTime x v % 2 ^ 64) rtp
  | _, _ => s

end Sys2Proof.Machine
end

