-- ==== Sys2Proof/Machine/AudioOps.lean ====
section
/-! DEFINITION. The audio port nodes (08): ports, routes, masks and trims, output latches and blocks in play, captured input
blocks, network flows, channel status, and the AUD registers' side effects. -/
namespace Sys2Proof.Machine

/-- The audio part of the state replaced. -/
def State.setAud (s : State) (a : Audio) : State := { s with aud := a }

/-- A port that nothing has used. -/
def AudPort.idle : AudPort :=
  { route := none, masks := [], stopAt := none, latched := none, play := [], inAt := none, capture := [], line := [], fsAt := 0,
    level := false, csAt := 0, csTx := [] }

/-- Port p of node n. -/
def State.audPort (s : State) (n p : Nat) : AudPort := s.aud.ports.getD (8 * n + p) AudPort.idle

/-- A port set. -/
def State.setAudPort (s : State) (n p : Nat) (x : AudPort) : State := s.setAud { s.aud with ports := s.aud.ports.put (8 * n + p) x }

/-- Flow f of node n. -/
def State.audFlow (s : State) (n f : Nat) : AudFlow := s.aud.flows.getD (16 * n + f) ⟨none, []⟩

/-- A flow set. -/
def State.setAudFlow (s : State) (n f : Nat) (x : AudFlow) : State := s.setAud { s.aud with flows := s.aud.flows.put (16 * n + f) x }

/-! ### Blocks (R202-R204) -/

/-- The block boundary at or before an m-time. -/
def blockAt (t : Nat) : Nat := t / 10 ^ 6 * 10 ^ 6

/-- The instant of sample k of block b. -/
def sampleTime (b k : Nat) : Nat := b + k * 62500 / 3

/-- The block whose latch has come last: its latch is 50 us before its boundary (R216, R221). -/
def State.latchBlock (s : State) : Nat := blockAt (s.mtime + 50000)

/-- Does a node run: enabled and not drained or halted? -/
def State.audRuns (s : State) (n : Nat) : Bool := s.flag F.AUD_CTRL_en n && decide (s.get F.AUD_STATUS_state n ≤ 1) &&
  !s.sys.draining.contains (.audio, n)

/-- Does a node play silence: enabled, and draining, drained or halted (R224)? -/
def State.audSilent (s : State) (n : Nat) : Bool := s.flag F.AUD_CTRL_en n && !s.audRuns n

/-- Is a port in service for block b: enabled, or stopping at a later boundary (R210)? -/
def State.audActive (s : State) (n p b : Nat) : Bool :=
  s.audRuns n && (s.flag F.AUD_PORT_CFG_en n p || (((s.audPort n p).stopAt.map (fun t => decide (b < t))).getD false))

/-- Channels of a port (R209). -/
def State.audChannels (s : State) (n p : Nat) : Nat :=
  if s.get F.AUD_PORT_CFG_mode n p = 0 then s.get F.AUD_PORT_CFG_slots n p + 1 else 2

/-- The route of a port for block b (R208). -/
def State.routeFor (s : State) (n p b : Nat) : Reg64 :=
  match (s.audPort n p).route with
  | some (t, old) => if b < t then old else s.reg .AUD_PORT_ROUTE n p
  | none => s.reg .AUD_PORT_ROUTE n p

/-- The mask of a port at an m-time (R213). -/
def State.maskAt (s : State) (n p t : Nat) : Reg64 :=
  match (s.audPort n p).masks.find? (fun e => decide (e.1 ≤ t)) with
  | some (_, m) => m
  | none => match (s.audPort n p).masks.getLast? with
    | some (_, m) => m
    | none => s.reg .AUD_PORT_MASK n p

/-- Channels of an item's buffer. -/
def itemChannels (w0 : Word) : Nat := fld w0 63 58 + 1

/-- Tiles of a block buffer of so many channels. -/
def blockTiles (nch : Nat) : Nat := ceilDiv (192 * nch) 512

/-- Boundary of an output item: its mtime taken down to a boundary (R204). -/
def itemBlock (w0 : Word) : Nat := blockAt (fld w0 127 64)

/-- The container of sample k, channel j of an item's buffer: 0 for a channel it lacks, 0 with validity 0 in a tile that
failed (R216, R218). -/
def State.itemSample (s : State) (w0 : Word) (bad : List Nat) (k j : Nat) : BitVec 32 :=
  let nch := itemChannels w0
  let o := 4 * (k * nch + j)
  if j ≥ nch ∨ bad.contains (o / 512) then 0 else BitVec.ofNat 32 (leNat (s.rd (fld w0 47 0 + o) 4))

/-- The failing tiles of an item's buffer, reported and counted in a field (R218, R221). -/
def State.checkItem (s : State) (n : Nat) (w0 : Word) (f : RegField) (i : Nat) : List Nat × State :=
  let a := fld w0 47 0
  let (s, bad) := s.verifyBy (.aud n) .audio (blockTiles (itemChannels w0)) a
  (bad.map (fun x => (x - a) / 512), s.count f bad.length n i)

/-- A buffer returned to an item's ret_q. -/
def State.returnItem (s : State) (n : Nat) (w0 w1 : Word) : State :=
  s.pushItem (.aud n) (fld w1 127 108) [BitVec.ofNat 128 (fld w0 47 0)]

/-! ### Output (R207, R215-R218) -/

/-- A container scaled by a slot's trim (R207). -/
def trimmed (v : BitVec 32) (gain : Nat) (mute : Bool) : BitVec 32 :=
  if mute then putFld v 31 8 0 else
    let x := (signed 24 (fld v 31 8) * gain + 8192).fdiv 16384
    putFld v 31 8 (unsigned 24 (clampInt x (-2 ^ 23) (2 ^ 23 - 1)))

/-- The CRCC of AES3 over bytes: CRC-8, x^8 + x^4 + x^3 + x^2 + 1, least significant bit first, from ones. -/
def crcc (b : List Byte) : Nat := crcOver 0xB8 0xFF b

/-- The 24 bytes of channel status of a channel as AUD_CS_TX holds them, with the CRCC where cs_crc asks for it (R215). -/
def State.csBytes (s : State) (n p : Nat) (tx : List Reg64) (ch : Nat) : List Byte :=
  let b := (List.range 3).flatMap (fun k => leBytes 8 (((tx[3 * ch + k]?).getD 0).toNat))
  if s.flag F.AUD_PORT_CFG_cs_crc n p then b.take 23 ++ [BitVec.ofNat 8 (crcc (b.take 23))] else b

/-- AUD_CS_TX of a port. -/
def State.csTxNow (s : State) (n p : Nat) : List Reg64 := (List.range 6).map (fun k => s.reg .AUD_CS_TX n (6 * p + k))

/-- The channel status and Z of an AES3 output frame (R215): the frame's containers, with the port's status count after. -/
def State.csFrame (s : State) (n p : Nat) (x : AudPort) (fr : List (BitVec 32)) : List (BitVec 32) × AudPort × Nat :=
  if s.get F.AUD_PORT_CFG_mode n p ≠ 2 then (fr, x, 0)
  else if s.get F.AUD_PORT_CFG_cs_src n p = 0 then
    let z := x.csAt = 0
    let x := if z then { x with csTx := s.csTxNow n p } else x
    let bitOf (ch : Nat) : Nat := bAt (s.csBytes n p x.csTx ch) (x.csAt / 8) / 2 ^ (x.csAt % 8) % 2
    (fr.zipIdx.map (fun e => putFld (putFld e.1 5 5 (bitOf e.2)) 4 4 (bnat z)), { x with csAt := (x.csAt + 1) % 192 }, 0)
  else
    let z := bit ((fr[0]?).getD 0) 4
    let early := z && x.csAt != 0
    let here := z || x.csAt == 0
    (fr.map (fun v => putFld v 4 4 (bnat here)), { x with csAt := if here then 1 else (x.csAt + 1) % 192 }, bnat early)

/-- The containers of sample k of a block as the port takes it, scaled by the trims (R207, R216). -/
def State.outFrame (s : State) (n p : Nat) (b : PlayBlock) (k : Nat) : List (BitVec 32) :=
  (List.range (s.audChannels n p)).map (fun j =>
    match b.item with
    | some (w0, _) => trimmed (s.itemSample w0 b.bad k j) (s.get F.AUD_TRIM_gain n (32 * p + j)) (s.flag F.AUD_TRIM_mute n (32 * p + j))
    | none => 0)

/-- Has a port stopped by an m-time (R210)? -/
def AudPort.stopped (x : AudPort) (t : Nat) : Bool := (x.stopAt.map (fun u => decide (u ≤ t))).getD false

/-- The samples of a block in play whose instants have come, up to `upTo`, enter the converter (R207); none of a block that the port's
stop leaves out (R210). -/
def State.takeBlock (s : State) (n p upTo : Nat) : Nat → AudPort → PlayBlock → AudPort × PlayBlock
  | 0, x, b => (x, b)
  | f + 1, x, b =>
    if b.k ≥ 48 ∨ sampleTime b.b b.k > upTo ∨ x.stopped b.b = true then (x, b) else
      State.takeBlock s n p upTo f { x with line := (x.line ++ [(b.b / 10 ^ 6 * 48 + b.k, s.outFrame n p b b.k)]).drop (x.line.length - 255) }
        { b with k := b.k + 1 }

/-! ### Output frames (R209, R211-R215) -/

/-- A port's nominal ratio in 2^-32: port samples per internal sample. -/
def nominalRatio (rate : Nat) : Nat :=
  match rate with
  | 1 => 91875 * 2 ^ 32 / 100000
  | 2 => 2 * 2 ^ 32
  | _ => 2 ^ 32

/-- Is a port aligned (R211)? -/
def State.aligned (s : State) (n p : Nat) : Bool := s.get F.AUD_PORT_CFG_clk_src n p == 0

/-- The frames a second of a port, in 2^-32: its exact rate where it is aligned, else what its ratio says (R211, R212). -/
def State.frameRate (s : State) (n p : Nat) : Nat :=
  48000 * (if s.aligned n p then nominalRatio (s.get F.AUD_PORT_CFG_rate n p) else s.get F.AUD_PORT_RATIO_ratio n p)

/-- Does a port send frames: enabled or not yet stopped, its node on, its clock there (R211, R212, R224; 18 R412)? -/
def State.framing (s : State) (n p : Nat) : Bool :=
  let x := s.audPort n p
  !s.dark && s.flag F.AUD_CTRL_en n && (s.flag F.AUD_PORT_CFG_en n p || (x.stopAt.isSome && !x.stopped x.fsAt)) &&
    (s.aligned n p || s.flag F.AUD_PORT_STAT_locked n p)

/-- The containers of frame g as the output converter gives them: at 48 kHz aligned the samples themselves, else converted; user bit,
status bit and validity of the sample before, Z of any sample since the frame before (R212; log 94). -/
def State.convFrame (s : State) (n p : Nat) (x : AudPort) (g : Nat) : List (BitVec 32) :=
  let r := s.frameRate n p
  let k := (linePos r g).fdiv r
  let z := (x.line.filter (fun e => decide ((linePos r (g - 1)).fdiv r < e.1 ∧ (e.1 : Int) ≤ k))).any (fun e => bit ((e.2[0]?).getD 0) 4)
  (List.range (s.audChannels n p)).map (fun j =>
    match x.line.find? (fun e => (e.1 : Int) == k) with
    | none => 0
    | some e =>
      let v := (e.2[j]?).getD 0
      let d := if s.aligned n p && r == 48000 * 2 ^ 32 then fld v 31 8
        else Config.resample (x.line.map (fun e => fld ((e.2[j]?).getD 0) 31 8)) (linePos r g) r
      putFld (putFld v 31 8 d) 4 4 (bnat z))

/-- A frame as it goes out, with the port's AES3 level after (R209, R213, R214). -/
def State.wire (s : State) (n p : Nat) (lvl : Bool) (mask : Reg64) (fr : List (BitVec 32)) : PortFrame × Bool :=
  let mode := s.get F.AUD_PORT_CFG_mode n p
  let sb := s.get F.AUD_PORT_CFG_slot_bits n p
  if mode = 2 then
    let (l, e) := aes3Frame lvl ((fr[0]?).getD 0) ((fr[1]?).getD 0)
    (⟨[], l.map some, false, false⟩, e)
  else
    let high := mode == 0 && s.flag F.AUD_PORT_CFG_out_hiz n p
    let sdo := fr.zipIdx.flatMap (fun e => (slotBits sb e.1).map (fun b => if high && !bit mask (32 + e.2) then none else some b))
    let master := decide (s.get F.AUD_PORT_CFG_clk_src n p ≤ 1)
    (⟨if master then frameSync (mode == 1) (s.flag F.AUD_PORT_CFG_fs_wide n p) (s.flag F.AUD_PORT_CFG_fs_inv n p) fr.length (slotWidth sb) else [],
      sdo, s.flag F.AUD_PORT_CFG_fs_delay n p, s.flag F.AUD_PORT_CFG_bclk_fall n p⟩, lvl)

/-- Frame g goes out: converter, transmit mask at its sync, channel status, line (R212-R215). -/
def State.frameOut (s : State) (n p g : Nat) : State :=
  let x := s.audPort n p
  let t := syncTime (s.frameRate n p) g
  let mask := s.maskAt n p t
  let fr := (s.convFrame n p x g).zipIdx.map (fun e => if bit mask (32 + e.2) then e.1 else 0)
  let (fr, x, early) := s.csFrame n p x fr
  let (f, lvl) := s.wire n p x.level mask fr
  ((s.count F.AUD_PORT_CNT_line_err early n p).setAudPort n p { x with level := lvl }).emit (.audio n p t f)

/-- A port brought up to now: samples taken, frames gone out up to its stop. -/
def State.takeSamples (s : State) (n p : Nat) : State :=
  let x := s.audPort n p
  let (x, l) := x.play.foldl (fun (a : AudPort × List PlayBlock) b =>
    let (x, b) := State.takeBlock s n p s.mtime 48 a.1 b
    (x, a.2 ++ [b])) (x, [])
  let s1 := s.setAudPort n p { x with play := l }
  let upTo := min s.mtime ((x.stopAt.map (· - 1)).getD s.mtime)
  let r := s.frameRate n p
  let first := framesBy r x.fsAt + 1
  let s2 := if s1.framing n p then (List.range (framesBy r upTo + 1 - first)).foldl (fun s i => s.frameOut n p (first + i)) s1 else s1
  s2.setAudPort n p { s2.audPort n p with fsAt := s.mtime }

/-- The block an output takes at a latch from a queue (R216): late items are returned and counted in a field, at most 64. -/
def State.latchQueue (n b q i : Nat) (late : RegField) : Nat → State → Option (Word × Word) × State
  | 0, s => (none, s)
  | k + 1, s =>
    match (s.queues.get? q).bind (fun a => if a.unread = 0 then none else a.head) with
    | some (w0 :: more) =>
      let w1 := more.headD 0
      if itemBlock w0 > b then (none, s)
      else match s.popItem q with
        | none => (none, s)
        | some (_, s) =>
          if itemBlock w0 < b then State.latchQueue n b q i late k ((s.returnItem n w0 w1).count late 1 n i)
          else (some (w0, w1), s)
    | _ => (none, s)

/-- A block joins those in play. -/
def State.playBlock (s : State) (n p b : Nat) (item : Option (Word × Word)) (bad : List Nat) : State :=
  let x := s.audPort n p
  s.setAudPort n p { x with latched := some b, play := x.play ++ [⟨b, item, bad, 0⟩] }

/-- OUTPUT_LATCH (R212, R216, R217). -/
def State.outputLatch (s : State) (n p : Nat) : State :=
  let b := s.latchBlock
  let s := s.takeSamples n p
  if (s.audPort n p).latched = some b then s
  else if s.audSilent n && s.flag F.AUD_PORT_CFG_en n p then s.playBlock n p b none []
  else if s.audActive n p b = false then s else
    let q := fld (s.routeFor n p b) 63 44
    if q = noQueue then s.playBlock n p b none [] else
      match State.latchQueue n b q p F.AUD_PORT_CNT_late 64 s with
      | (some (w0, w1), s) =>
        if s.flag F.AUD_PORT_STAT_locked n p then
          let (bad, s) := s.checkItem n w0 F.AUD_PORT_CNT_crc_fail p
          s.playBlock n p b (some (w0, w1)) bad
        else (s.returnItem n w0 w1).playBlock n p b none []
      | (none, s) =>
        let s := if s.flag F.AUD_PORT_STAT_locked n p then s.count F.AUD_PORT_CNT_underrun 1 n p else s
        s.playBlock n p b none []

/-- OUTPUT_BUFFER_RETURN: the oldest block in play has entered the converter whole, or the port stopped before it (R210, R216). -/
def State.outputReturn (s : State) (n p : Nat) : State :=
  let s := s.takeSamples n p
  let x := s.audPort n p
  match x.play with
  | [] => s
  | b :: rest =>
    if (b.k < 48 ∨ s.mtime < b.b + 10 ^ 6) ∧ (x.stopped b.b && x.stopped s.mtime) = false then s else
      let s := s.setAudPort n p { x with play := rest }
      match b.item with
      | some (w0, w1) => (s.chargeBytes (s.get F.AUD_CTRL_account n) (192 * itemChannels w0)).returnItem n w0 w1
      | none => s

/-! ### Input (R212, R213, R219) -/

/-- INPUT_BLOCK_BOUNDARY (R219). -/
def State.inputBoundary (s : State) (n p : Nat) : State :=
  let b := blockAt s.mtime
  let x := s.audPort n p
  if s.audActive n p b = false ∨ x.inAt = some b then s else
    let r := s.routeFor n p b
    let s := s.setAudPort n p { x with inAt := some b }
    if fld r 43 24 = noQueue then s else
      match s.popItem (fld r 23 4) with
      | some (w :: _, s) =>
        let x := s.audPort n p
        s.setAudPort n p { x with capture := x.capture ++ [⟨b, fld w 47 0, fld r 43 24, s.flag F.AUD_PORT_STAT_locked n p⟩] }
      | _ => s.count F.AUD_PORT_CNT_overrun 1 n p

/-- The containers of the port frames of a captured block: zero and not valid where the receive mask at the frame's sync leaves the slot
out (R209, R213, R214). -/
def State.received (s : State) (n p : Nat) (c : Capture) (samples : List PortSample) : List (BitVec 32) :=
  let nch := s.audChannels n p
  let r := s.frameRate n p
  let g := framesBy r (c.b - 750000)
  samples.zipIdx.map (fun e =>
    let i := e.2 / nch
    if bit (s.maskAt n p (syncTime r (g + i - 1))) (e.2 % nch) then
      lineContainer (s.get F.AUD_PORT_CFG_mode n p == 2) (s.get F.AUD_PORT_CFG_slot_bits n p) e.1
    else 0)

/-- The containers of a captured block: the frames themselves at 48 kHz aligned, else converted; zero and not valid where the port was
unlocked (R212; log 94). -/
def State.captured (s : State) (n p : Nat) (c : Capture) (samples : List PortSample) : List (BitVec 32) :=
  let nch := s.audChannels n p
  let l := s.received n p c samples
  let m := l.length / nch
  let plain := s.aligned n p && s.get F.AUD_PORT_CFG_rate n p == 0
  (List.range (48 * nch)).map (fun i =>
    let v := (l[(if plain then i / nch else i / nch * m / 48) * nch + i % nch]?).getD 0
    if c.valid = false ∨ v = 0 then 0
    else if plain then v
    else putFld v 31 8 (Config.resample ((List.range m).map (fun f => fld ((l[f * nch + i % nch]?).getD 0) 31 8)) (i / nch * m : Nat) 48))

/-- INPUT_BLOCK_PUSH: the oldest block in capture, once complete (R219). -/
def State.inputPush (s : State) (n p : Nat) (samples : List PortSample) : State :=
  let x := s.audPort n p
  match x.capture with
  | [] => s
  | c :: rest =>
    if s.mtime < c.b + 10 ^ 6 then s else
      let nch := s.audChannels n p
      let l := s.captured n p c samples
      let s := s.count F.AUD_PORT_CNT_line_err (if s.get F.AUD_PORT_CFG_mode n p = 2 then (samples.filter (·.err)).length else 0) n p
      let bytes := l.flatMap (fun v => leBytes 4 v.toNat)
      let s := (s.setAudPort n p { x with capture := rest }).writeBuf c.addr bytes
      let s := s.chargeBytes (s.get F.AUD_CTRL_account n) (192 * nch)
      let invalid := l.any (fun v => !bit v 7)
      let z := l.any (fun v => bit v 4)
      let ns := s.nanos - (s.mtime - c.b)
      s.pushItem (.aud n) c.queue
        [BitVec.ofNat 128 (c.b * 2 ^ 64 + (nch - 1) * 2 ^ 58 + bnat invalid * 2 ^ 57 + bnat z * 2 ^ 56 + (8 * n + p) * 2 ^ 48 + c.addr),
         BitVec.ofNat 128 (stampOf ns 0)]

/-! ### Network flows (R220, R221) -/

/-- FLOW_LATCH (R221). -/
def State.flowLatch (s : State) (n f : Nat) : State :=
  let b := s.latchBlock
  let x := s.audFlow n f
  if s.audRuns n = false ∨ s.flag F.AUD_NET_CFG_en n f = false ∨ x.latched = some b then s else
    let s := s.setAudFlow n f { x with latched := some b }
    match State.latchQueue n b (s.get F.AUD_NET_CFG_queue n f) f F.AUD_NET_CNT_late 64 s with
    | (some (w0, w1), s) =>
      let (bad, s) := s.checkItem n w0 F.AUD_NET_CNT_crc_fail f
      let x := s.audFlow n f
      s.setAudFlow n f { x with blocks := x.blocks ++ [⟨b, w0, w1, bad, 0⟩] }
    | (none, s) => s.count F.AUD_NET_CNT_underrun 1 n f

/-- Packets of a block: one at 1 ms, eight at 125 us (R221). -/
def State.flowPackets (s : State) (n f : Nat) : Nat := if s.flag F.AUD_NET_CFG_ptime n f then 8 else 1

/-- The payload of packet j: samples interleaved by channel, big-endian (R221). -/
def State.flowPayload (s : State) (n f : Nat) (k : FlowBlock) : List Byte :=
  let per := 48 / s.flowPackets n f
  let l16 := s.flag F.AUD_NET_CFG_enc n f
  (List.range per).flatMap (fun i => (List.range (s.get F.AUD_NET_CFG_ch n f + 1)).flatMap (fun c =>
    let v := s.itemSample k.w0 k.bad (k.j * per + i) c
    if l16 then beBytes 2 (fld v 31 16) else beBytes 3 (fld v 31 8)))

/-- FLOW_PACKET_HANDOFF: packet j of the oldest block, at b + j T (R221). -/
def State.flowHandoff (s : State) (n f : Nat) : State :=
  let x := s.audFlow n f
  match x.blocks with
  | [] => s
  | k :: rest =>
    let m := s.flowPackets n f
    let t := k.b + k.j * (10 ^ 6 / m)
    if s.mtime < t then s else
      let seq := s.get F.AUD_NET_ID_seq n f
      let ts := 48 * (k.b / 10 ^ 6) + 48 * k.j / m
      let rtp := beBytes 1 0x80 ++ beBytes 1 (s.get F.AUD_NET_ID_pt n f) ++ beBytes 2 seq ++ beBytes 4 ts ++
        beBytes 4 (s.get F.AUD_NET_ID_ssrc n f) ++ s.flowPayload n f k
      let last := k.j + 1 ≥ m
      let s := s.setAudFlow n f { x with blocks := if last then rest else { k with j := k.j + 1 } :: rest }
      let s := (s.put F.AUD_NET_ID_seq (seq + 1) n f).handPacket (s.get F.AUD_NET_CFG_lg n f) (s.get F.AUD_NET_CFG_flow n f) t rtp
      if last then (s.chargeBytes (s.get F.AUD_CTRL_account n) (192 * itemChannels k.w0)).returnItem n k.w0 k.w1 else s

/-- The write of AUD_NET_CFG (R220). -/
def State.wrNetCfg (s : State) (n f : Nat) (v : Reg64) : State :=
  let new := codedWrite RegName.AUD_NET_CFG.info (s.reg .AUD_NET_CFG n f) v
  if bit v 63 && !s.flag F.AUD_NET_CFG_en n f && !bit v 49 && decide (fld v 48 43 + 1 > 8) then
    (s.setReg .AUD_NET_CFG (putFld new 63 63 0) n f).put F.AUD_NET_CNT_refused 1 n f
  else s.setReg .AUD_NET_CFG new n f

/-! ### Locks and ratios (R211, R212) -/

/-- A change of lock sets lock_evt and writes a record (R212; 16 R369); a block in capture as the lock is lost is not valid. -/
def State.setLock (s : State) (n p : Nat) (on : Bool) : State :=
  if s.flag F.AUD_PORT_STAT_locked n p = on then s else
    let s := s.takeSamples n p
    let s := (s.put F.AUD_PORT_STAT_locked (bnat on) n p).put F.AUD_PORT_STAT_lock_evt 1 n p
    let x := s.audPort n p
    let s := if on then s else s.setAudPort n p { x with
      capture := x.capture.map (fun c => { c with valid := c.valid && decide (c.b + 10 ^ 6 ≤ s.mtime) }) }
    s.logEv 0x0901 (0x28 + n) p 4 (snapOf (s.reg .AUD_PORT_STAT n p) ++ snapOf (s.reg .AUD_PORT_RATIO n p))

/-- An aligned port is locked, at its exact ratio, while it is enabled and its node runs (R212). -/
def State.alignPort (s : State) (n p : Nat) : State :=
  if s.flag F.AUD_PORT_CFG_en n p && s.aligned n p then
    (s.put F.AUD_PORT_RATIO_ratio (nominalRatio (s.get F.AUD_PORT_CFG_rate n p)) n p).setLock n p
      (s.flag F.AUD_CTRL_en n && decide (s.get F.AUD_STATUS_state n ≤ 1))
  else s

/-- The aligned ports of a node, locked or not as it runs. -/
def State.alignPorts (s : State) (n : Nat) : State := (List.range 8).foldl (fun (s : State) p => s.alignPort n p) s

/-- Is a tracked ratio within 1,000 ppm of nominal? -/
def ratioInBand (rate ratio : Nat) : Bool :=
  let m := nominalRatio rate
  decide (1000 * (ratio - m) ≤ m ∧ 1000 * (m - ratio) ≤ m)

/-- PORT_LOCK of a tracked port with its ratio: out of band, it is or becomes unlocked (R212). -/
def State.portLock (s : State) (n p ratio : Nat) : State :=
  if s.audActive n p (blockAt s.mtime) && !s.aligned n p then
    ((s.takeSamples n p).put F.AUD_PORT_RATIO_ratio ratio n p).setLock n p (ratioInBand (s.get F.AUD_PORT_CFG_rate n p) ratio)
  else s

/-- PORT_UNLOCK of a tracked port (R212). -/
def State.portUnlock (s : State) (n p ratio : Nat) : State :=
  if s.aligned n p then s else ((s.takeSamples n p).setLock n p false).put F.AUD_PORT_RATIO_ratio ratio n p

/-! ### Registers (R208, R210, R213, R226) -/

/-- Does an enabling write name an unsupported port (R210)? -/
def audCfgRefused (v : Reg64) : Bool :=
  let mode := fld v 62 61
  let rate := fld v 58 57
  let slots := if mode = 0 then fld v 56 52 + 1 else 2
  let bits := 16 + 8 * fld v 51 50
  let hz := match rate with
    | 1 => 44100
    | 2 => 96000
    | _ => 48000
  decide (slots * bits * hz > 49152000) || mode == 3 || rate == 3 || fld v 51 50 == 3 || (fld v 60 59 == 3 && mode != 2)

/-- The write of AUD_PORT_CFG (R210). -/
def State.wrAudCfg (s : State) (n p : Nat) (v : Reg64) : State :=
  let old := s.reg .AUD_PORT_CFG n p
  let new := codedWrite RegName.AUD_PORT_CFG.info old v
  if s.flag F.AUD_PORT_CFG_en n p then
    if putFld new 63 63 1 ≠ old then s.put F.AUD_PORT_STAT_cfg_err 1 n p
    else if bit v 63 then s
    else
      let s := s.takeSamples n p
      let x := s.audPort n p
      let s := (s.put F.AUD_PORT_CFG_en 0 n p).setAudPort n p { x with stopAt := some (blockAt s.mtime + 10 ^ 6) }
      if s.aligned n p then s.setLock n p false else s
  else if bit v 63 && audCfgRefused v then
    (s.setReg .AUD_PORT_CFG (putFld new 63 63 0) n p).put F.AUD_PORT_STAT_cfg_err 1 n p
  else
    let s := (s.takeSamples n p).setReg .AUD_PORT_CFG new n p
    if bit v 63 then
      let x := s.audPort n p
      (s.setAudPort n p { x with stopAt := none, csAt := 0, line := [], level := false, fsAt := s.mtime }).alignPort n p
    else s

/-- The write of AUD_PORT_ROUTE: in force from the first block boundary after it (R208). -/
def State.wrRoute (s : State) (n p : Nat) (v : Reg64) : State :=
  let b := blockAt s.mtime
  let old := s.routeFor n p b
  let s := s.setReg .AUD_PORT_ROUTE (codedWrite RegName.AUD_PORT_ROUTE.info (s.reg .AUD_PORT_ROUTE n p) v) n p
  s.setAudPort n p { s.audPort n p with route := some (b + 10 ^ 6, old) }

/-- The write of AUD_PORT_MASK: in force from the next frame sync (R213; log 55). -/
def State.wrMask (s : State) (n p : Nat) (v : Reg64) : State :=
  let s := s.takeSamples n p
  let old := s.maskAt n p s.mtime
  let s := s.setReg .AUD_PORT_MASK v n p
  let x := s.audPort n p
  let l := if x.masks.isEmpty then [(0, old)] else x.masks
  s.setAudPort n p { x with masks := ((s.mtime + 1, v) :: l).take 192 }

/-- The write of AUD_TRIM: samples already due take the old value (R207). -/
def State.wrTrim (s : State) (n i : Nat) (v : Reg64) : State :=
  let s := s.takeSamples n (i / 32)
  s.setReg .AUD_TRIM (codedWrite RegName.AUD_TRIM.info (s.reg .AUD_TRIM n i) v) n i

/-- The write of AUD_CS_TX: frames already due keep the old bytes; it takes effect at the next Z (R215). -/
def State.wrCsTx (s : State) (n i : Nat) (v : Reg64) : State := (s.takeSamples n (i / 6)).setReg .AUD_CS_TX v n i

/-- The write of AUD_CTRL: the node's state, and the lock of its aligned ports (R212). -/
def State.wrAudCtrl (s : State) (n : Nat) (v : Reg64) : State :=
  let s := (List.range 8).foldl (fun (s : State) p => s.takeSamples n p) s
  let s := s.setReg .AUD_CTRL (codedWrite RegName.AUD_CTRL.info (s.reg .AUD_CTRL n) v) n
  let s := if s.get F.AUD_STATUS_state n ≤ 1 then s.put F.AUD_STATUS_state (fld v 63 63) n else s
  s.alignPorts n

/-- A received channel-status block of one channel (R215; log 56). -/
def State.csChannel (s : State) (n p ch : Nat) (b : List Byte) : State :=
  if bAt b 0 % 2 = 1 ∧ crcc (b.take 23) ≠ bAt b 23 then s.count F.AUD_PORT_CNT_line_err 1 n p
  else
    let s := (List.range 3).foldl (fun (s : State) k =>
      s.setReg .AUD_CS_RX (BitVec.ofNat 64 (leNat (slice b (8 * k) 8))) n (6 * p + 3 * ch + k)) s
    s.put F.AUD_PORT_STAT_cs_new 1 n p

/-- CS_BLOCK_RECEIVE (R215). -/
def State.csReceive (s : State) (n p : Nat) (ch0 ch1 : List Byte) : State :=
  if s.audActive n p (blockAt s.mtime) && s.get F.AUD_PORT_CFG_mode n p == 2 then (s.csChannel n p 0 ch0).csChannel n p 1 ch1 else s

end Sys2Proof.Machine
end

