-- ==== Sys2Proof/Machine/AudioNode.lean ====
section
/-! DEFINITION. The meanings of the audio commands that are no register writes (08). -/
namespace Sys2Proof.Machine

/-- OUTPUT_LATCH (R216). -/
def execOutputLatch (node port : Nat) (s : State) : Host.Outcome State Fault Refusal := .next (s.outputLatch node port)

/-- OUTPUT_BUFFER_RETURN (R216). -/
def execOutputBufferReturn (node port : Nat) (s : State) : Host.Outcome State Fault Refusal := .next (s.outputReturn node port)

/-- INPUT_BLOCK_BOUNDARY (R219). -/
def execInputBlockBoundary (node port : Nat) (s : State) : Host.Outcome State Fault Refusal := .next (s.inputBoundary node port)

/-- INPUT_BLOCK_PUSH (R219); `samples`: what the port brings in the block, frame by frame. -/
def execInputBlockPush (node port : Nat) (samples : List PortSample) (s : State) : Host.Outcome State Fault Refusal :=
  .next (s.inputPush node port samples)

/-- FLOW_LATCH (R221). -/
def execFlowLatch (node f : Nat) (s : State) : Host.Outcome State Fault Refusal := .next (s.flowLatch node f)

/-- FLOW_PACKET_HANDOFF (R221). -/
def execFlowPacketHandoff (node f : Nat) (s : State) : Host.Outcome State Fault Refusal := .next (s.flowHandoff node f)

/-- PORT_LOCK (R212). -/
def execPortLock (node port ratio : Nat) (s : State) : Host.Outcome State Fault Refusal := .next (s.portLock node port ratio)

/-- PORT_UNLOCK (R212). -/
def execPortUnlock (node port ratio : Nat) (s : State) : Host.Outcome State Fault Refusal := .next (s.portUnlock node port ratio)

/-- CS_BLOCK_RECEIVE (R215). -/
def execCsBlockReceive (node port : Nat) (ch0 ch1 : List Byte) (s : State) : Host.Outcome State Fault Refusal :=
  .next (s.csReceive node port ch0 ch1)

end Sys2Proof.Machine
end

