-- ==== Sys2Proof/Machine/BitstreamOps.lean ====
section
/-! DEFINITION. What codec cores read of coded pictures beside the standards' own decoding (05 R118, R119, R140, R143; 06 R149):
the units of a picture's packets and the discards, supported formats, partitions, levels. -/
namespace Sys2Proof.Machine

/-! ### Units of a picture's packets (05 R119, R124; RFC 6184, RFC 7798, the AV1 RTP payload format) -/

/-- A NAL unit or OBU: its type, layer and temporal identifiers (AV1: none without an extension header), and its bytes. -/
structure CodedUnit where
  kind : Nat
  s : Option Nat
  t : Option Nat
  bytes : Nat
  deriving DecidableEq, Repr

/-- More bytes of the latest unit. -/
def moreOf (l : List CodedUnit) (n : Nat) : List CodedUnit :=
  match l.reverse with
  | [] => []
  | u :: r => (({ u with bytes := u.bytes + n }) :: r).reverse

/-- The unit whose NAL header begins with `b`, of `n` bytes. -/
def nalUnit (codec : Nat) (b : List Byte) (n : Nat) : CodedUnit :=
  if codec = 1 then ⟨bAt b 0 % 32, none, none, n⟩
  else ⟨bAt b 0 / 2 % 64, some (netAt b 0 2 / 8 % 64), some (netAt b 0 2 % 8 - 1), n⟩

/-- The units of an aggregation packet: each after its size in two bytes. -/
def aggregated (codec : Nat) : Nat → List Byte → List CodedUnit
  | 0, _ => []
  | k + 1, b =>
    let n := netAt b 0 2
    if b.length < 3 then [] else nalUnit codec (b.drop 2) n :: aggregated codec k (b.drop (2 + n))

/-- A packet's payload added to the units of an H.264 or H.265 picture. -/
def addNal (codec : Nat) (l : List CodedUnit) (b : List Byte) : List CodedUnit :=
  let head := if codec = 1 then 1 else 2
  let ty := (nalUnit codec b 0).kind
  if b.length < head then l
  else if (codec = 1 ∧ ty = 24) ∨ (codec = 2 ∧ ty = 48) then l ++ aggregated codec b.length (b.drop head)
  else if (codec = 1 ∧ ty = 28) ∨ (codec = 2 ∧ ty = 49) then
    let fu := bAt b head
    let n := b.length - head - 1
    if fu / 128 = 1 then l ++ [{ nalUnit codec b (n + head) with kind := if codec = 1 then fu % 32 else fu % 64 }] else moreOf l n
  else l ++ [nalUnit codec b b.length]

/-- A leb128 number: the value and its bytes. -/
def leb128 : Nat → List Byte → Nat × Nat
  | 0, _ => (0, 0)
  | k + 1, b =>
    match b with
    | [] => (0, 0)
    | x :: r =>
      let v := x.toNat
      if v < 128 then (v, 1) else
        let e := leb128 k r
        (v % 128 + 128 * e.1, e.2 + 1)

/-- The OBU whose header begins with `b`, of `n` bytes. -/
def obuUnit (b : List Byte) (n : Nat) : CodedUnit :=
  let h := bAt b 0
  let x := bAt b 1
  if h / 4 % 2 = 1 then ⟨h / 8 % 16, some (x / 8 % 4), some (x / 32), n⟩ else ⟨h / 8 % 16, none, none, n⟩

/-- The OBU elements of a packet from `b`: `w` elements are left (0: each has its size); `cont`: the first continues a unit. -/
def addElements (w : Nat) : Nat → Bool → List Byte → List CodedUnit → List CodedUnit
  | 0, _, _, l => l
  | k + 1, cont, b, l =>
    if b.isEmpty then l else
      let (n, m) := if w = 1 then (b.length, 0) else leb128 8 b
      let e := (b.drop m).take n
      let l := if cont then moreOf l e.length else l ++ [obuUnit e e.length]
      if w = 1 then l else addElements (if w = 0 then 0 else w - 1) k false (b.drop (m + n)) l

/-- A packet's payload added to the OBUs of a temporal unit. -/
def addObu (l : List CodedUnit) (b : List Byte) : List CodedUnit :=
  let h := bAt b 0
  if b.isEmpty then l else addElements (h / 16 % 4) (b.length + 1) (h / 128 == 1) (b.drop 1) l

/-- The units of a picture from its packets' payloads in sequence order. -/
def codedUnits (codec : Nat) (payloads : List (List Byte)) : List CodedUnit :=
  payloads.foldl (fun l b => if codec = 3 then addObu l b else addNal codec l b) []

/-- Is a unit kept (05 R119)? -/
def unitKept (codec targetS targetT : Nat) (u : CodedUnit) : Bool :=
  match codec with
  | 1 => u.kind != 14 && u.kind != 20
  | 2 => u.s == some 0 && decide (u.t.getD 0 ≤ targetT)
  | _ => decide (u.s.getD 0 ≤ targetS ∧ u.t.getD 0 ≤ targetT)

/-- Does a unit hold coded picture data: a slice, or an AV1 frame, frame header or tile group? -/
def unitPicture (codec : Nat) (u : CodedUnit) : Bool :=
  match codec with
  | 1 => decide (1 ≤ u.kind ∧ u.kind ≤ 5)
  | 2 => decide (u.kind < 32)
  | _ => [3, 4, 6, 7].contains u.kind

/-- What a decoder keeps of a picture: the type of its first slice, its layers (for AV1 those of the highest spatial layer left), and
the bytes kept; none where no picture data is left (05 R119). -/
structure KeptPicture where
  kind : Nat
  s : Nat
  t : Nat
  bytes : Nat
  deriving DecidableEq, Repr

/-- The picture left after the discards (05 R119). -/
def keptPicture (codec targetS targetT : Nat) (l : List CodedUnit) : Option KeptPicture :=
  let kept := l.filter (unitKept codec targetS targetT)
  let pics := kept.filter (unitPicture codec)
  match pics.head? with
  | none => none
  | some p =>
    let top := pics.foldl (fun (b : CodedUnit) u => if u.s.getD 0 > b.s.getD 0 then u else b) p
    let u := if codec = 3 then top else p
    some ⟨p.kind, u.s.getD 0, u.t.getD 0, kept.foldl (fun n u => n + u.bytes) 0⟩

/-! ### Formats (05 R118) -/

/-- Is a picture within the limits of 05 R118? -/
def supported (codec : Nat) (f : DecodeFacts) : Bool :=
  match codec with
  | 1 => decide (f.profile ≤ 2 ∧ f.level ≤ 52) && f.depth == 8 && (f.chroma == 1 || (f.chroma == 0 && f.profile == 2)) && !f.interlaced
  | 2 => decide (f.profile ≤ 1 ∧ f.level ≤ 61) && (f.depth == 8 || (f.depth == 10 && f.profile == 1)) && f.chroma == 1 && !f.interlaced
  | _ => f.profile == 0 && decide (f.level ≤ 61) && (f.depth == 8 || f.depth == 10) && decide (f.chroma ≤ 1)

/-- CTUs in a row of the picture, and in the picture (05 R132). -/
def ctuCols (f : DecodeFacts) : Nat := ceilDiv f.codedW (max 1 f.ctu)
def ctuCount (f : DecodeFacts) : Nat := ctuCols f * ceilDiv f.codedH (max 1 f.ctu)

/-- The CTU addresses in coding order. -/
def ctuScan (f : DecodeFacts) : List Nat := if f.scan.isEmpty then List.range (ctuCount f) else f.scan

/-- The partitions into which a picture is divided by a job's part (05 R140). -/
def partitionsOf (f : DecodeFacts) (part : Nat) : Nat :=
  let rows := if f.wavefront then ceilDiv f.codedH (max 1 f.ctu) else 1
  match part with
  | 1 => max 1 f.tiles
  | 2 => max 1 f.slices
  | 3 => rows
  | _ => if f.tiles ≥ 2 then f.tiles else if f.wavefront then rows else max 1 f.slices

/-- The codec-core cycles of a decoded picture of `n` bytes (05 R143). -/
def decodeCycles (codec w h n : Nat) : Nat :=
  max (if codec = 3 then ceilDiv (w * h * 4) 15 else ceilDiv (w * h) 5) n + 4000

/-! ### Levels that the encoder writes (06 R149; log 92) -/

/-- The levels of H.264 (Table A-1): tenths, macroblocks a second, macroblocks a frame. -/
def levels264 : List (Nat × Nat × Nat) :=
  [(10, 1485, 99), (11, 3000, 396), (12, 6000, 396), (13, 11880, 396), (20, 11880, 396), (21, 19800, 792), (22, 20250, 1620),
   (30, 40500, 1620), (31, 108000, 3600), (32, 216000, 5120), (40, 245760, 8192), (42, 522240, 8704), (50, 589824, 22080),
   (51, 983040, 36864), (52, 2073600, 36864), (60, 4177920, 139264), (61, 8355840, 139264), (62, 16711680, 139264)]

/-- The levels of H.265 (Table A.8, A.9): tenths, luma samples a second, luma samples a picture. -/
def levels265 : List (Nat × Nat × Nat) :=
  [(10, 552960, 36864), (20, 3686400, 122880), (21, 7372800, 245760), (30, 16588800, 552960), (31, 33177600, 983040),
   (40, 66846720, 2228224), (41, 133693440, 2228224), (50, 267386880, 8912896), (51, 534773760, 8912896), (52, 1069547520, 8912896),
   (60, 1069547520, 35651584), (61, 2139095040, 35651584), (62, 4278190080, 35651584)]

/-- The levels of AV1 (Annex A): tenths, displayed samples a second, samples a picture, greatest width and height. -/
def levelsAv1 : List (Nat × Nat × Nat × Nat × Nat) :=
  [(20, 4423680, 147456, 2048, 1152), (21, 8363520, 278784, 2816, 1584), (30, 19975680, 665856, 4352, 2448),
   (31, 31950720, 1065024, 5504, 3096), (40, 70778880, 2359296, 6144, 3456), (41, 141557760, 2359296, 6144, 3456),
   (50, 267386880, 8912896, 8192, 4352), (51, 534773760, 8912896, 8192, 4352), (52, 1069547520, 8912896, 8192, 4352),
   (60, 1069547520, 35651584, 16384, 8704), (61, 2139095040, 35651584, 16384, 8704), (62, 4278190080, 35651584, 16384, 8704)]

/-- The lowest level whose picture-size and sample-rate limits cover a width, a height and a picture interval in us; none covers. -/
def levelFor (codec w h interval : Nat) : Option Nat :=
  let fits (rate size n : Nat) : Bool := decide (n ≤ size ∧ n * 10 ^ 6 ≤ rate * interval)
  if codec = 1 then
    let a := ceilDiv w 16
    let b := ceilDiv h 16
    (levels264.find? (fun e => fits e.2.1 e.2.2 (a * b) && decide (a * a ≤ 8 * e.2.2 ∧ b * b ≤ 8 * e.2.2))).map (·.1)
  else if codec = 2 then
    (levels265.find? (fun e => fits e.2.1 e.2.2 (w * h) && decide (w * w ≤ 8 * e.2.2 ∧ h * h ≤ 8 * e.2.2))).map (·.1)
  else
    (levelsAv1.find? (fun e => fits e.2.1 e.2.2.1 (w * h) && decide (w ≤ e.2.2.2.1 ∧ h ≤ e.2.2.2.2))).map (·.1)

end Sys2Proof.Machine
end

