-- ==== Sys2Proof/Machine/IntOps.lean ====
section
/-! DEFINITION. The interrupt controller (15): inputs of level sources, pending and presentable sources, events, claim,
EOI, doorbells, and the write and read side effects of the INC registers. -/
namespace Sys2Proof.Machine

/-- Unit, index and value of an entry of the register file that stands at a register of a kind. -/
def entryOf (i : RegInfo) (e : Nat × Reg64) : Option (Nat × Nat × Reg64) :=
  let b := (e.1 - 0xFF0000000000) / 0x1000000
  if i.blk.span.1 ≤ b ∧ b < i.blk.span.1 + i.blk.span.2 then
    (i.at? (e.1 % 0x1000000)).map (fun j => (b - i.blk.span.1, j, e.2))
  else none

/-- The written registers of a kind: unit, index and value. -/
def State.written (s : State) (n : RegName) : List (Nat × Nat × Reg64) := s.regs.filterMap (entryOf n.info)

/-- Records that no flash copy holds yet. -/
def State.unflushed (s : State) : Nat := (s.log.ring.filter (fun e => !e.2.flushed)).length

/-- Is no slot of the ring free (16 R373)? -/
def State.ringFull (s : State) : Bool := decide (s.unflushed ≥ 4096)

/-- The input of level source `n` now (15 R353, 16 R381, 18 R420). -/
def State.levelInput (s : State) (n : Nat) : Bool :=
  if n < 0x200 then
    match n with
    | 0x100 => s.flag F.MTB_STATUS_osc_lost
    | 0x101 => s.flag F.MTB_STATUS_hold_evt
    | 0x102 => s.flag F.MTB_STATUS_late_evt
    | 0x103 => s.flag F.MTB_STATUS_raster_err
    | 0x108 => s.flag F.DIS_STATUS_refused_evt
    | 0x109 => s.flag F.DIS_STATUS_fault_evt
    | 0x10A => s.flag F.DIS_STATUS_void_evt
    | 0x110 => (s.get F.SEC_ALARM_STAT_src).testBit 0
    | 0x111 => (s.get F.SEC_ALARM_STAT_src).testBit 1
    | 0x112 => (s.get F.SEC_ALARM_STAT_src).testBit 2
    | 0x113 => (s.get F.SEC_ALARM_STAT_src).testBit 3
    | 0x114 => !s.flag F.SEC_STATUS_rng_ok
    | 0x118 => s.flag F.LOG_STATUS_discard_evt
    | 0x119 => s.flag F.LOG_STATUS_overrun_evt
    | 0x11A => s.flag F.LOG_STATUS_flush_err
    | 0x11B => s.flag F.LOG_STATUS_sev_evt
    | 0x11C => s.ringFull
    | 0x120 => s.flag F.PWR_STATUS_pwrfail
    | 0x121 => s.flag F.PWR_STATUS_capped
    | 0x122 => s.flag F.PWR_STATUS_therm_warn
    | 0x123 => s.flag F.PWR_STATUS_reg_fault
    | 0x124 => s.flag F.PWR_STATUS_alive_lost
    | 0x125 => !s.flag F.PWR_STATUS_twin_ok
    | _ => false
  else if n < 0x400 then
    let g := (n - 0x200) / 32
    let p := n % 32
    s.flag F.LNK_PORT_STAT_link_evt g p || s.flag F.LNK_PORT_STAT_cfg_err g p
  else if n < 0x404 then
    let c := n - 0x400
    (s.written .CMP_CAN_STAT).any (fun e => e.1 == c && bit e.2.2 61) ||
      (s.written .CMP_INS_STAT).any (fun e => e.1 == c && bit e.2.2 31)
  else if 0x410 ≤ n ∧ n < 0x420 then
    let p := n - 0x410
    s.flag F.AUD_PORT_STAT_cfg_err (p / 8) (p % 8) || s.flag F.AUD_PORT_STAT_lock_evt (p / 8) (p % 8)
  else if 0x420 ≤ n ∧ n < 0x440 then s.flag F.AUD_NET_CNT_refused ((n - 0x420) / 16) (n % 16)
  else if 0x440 ≤ n ∧ n < 0x480 then
    let i := (n - 0x440) / 2
    if n % 2 = 0 then (List.range 8).any (fun c => s.get F.MEM_CHAN_STAT_state i c == 3)
    else s.reg .MEM_CRC_CNT0 i != 0 || s.reg .MEM_CRC_CNT1 i != 0
  else false

/-- A source with nothing latched. -/
def IntSrc.quiet : IntSrc := ⟨false, false, 0, false⟩

/-- A source's state. -/
def State.src (s : State) (n : Nat) : IntSrc := s.inc.src.getD n IntSrc.quiet

/-- A source's state set. -/
def State.setSrc (s : State) (n : Nat) (x : IntSrc) : State := { s with inc := { s.inc with src := s.inc.src.put n x } }

/-- Is source `n` pending (R354, R355)? -/
def State.pendingSrc (s : State) (n : Nat) : Bool :=
  n != 0 && s.get F.INC_SRC_prio 0 n != 0 && !(s.src n).active &&
    (if levelSource n then s.levelInput n else (s.src n).latch)

/-- The sources with a priority above 0. -/
def State.enabledSources (s : State) : List Nat := ((s.written .INC_SRC).filter (fun e => fld e.2.2 7 0 != 0)).map (·.2.1)

/-- A target's stack of claims. -/
def State.stackOf (s : State) (t : Nat) : List (Nat × Nat) := s.inc.claims.getD t []

/-- A target's running priority (R356). -/
def State.runPrio (s : State) (t : Nat) : Nat := s.inc.running.getD t 0

/-- The pending sources of target `t` above its running priority. -/
def State.eligible (s : State) (t : Nat) : List Nat :=
  s.enabledSources.filter (fun n => s.get F.INC_SRC_target 0 n == t && s.pendingSrc n && decide (s.get F.INC_SRC_prio 0 n > s.runPrio t))

/-- The best of some sources: the highest priority, then the lower number (R356). -/
def State.bestSource (s : State) (l : List Nat) : Option Nat :=
  l.foldl (fun b n => match b with
    | none => some n
    | some m =>
      let pn := s.get F.INC_SRC_prio 0 n
      let pm := s.get F.INC_SRC_prio 0 m
      if pn > pm ∨ (pn = pm ∧ n < m) then some n else some m) none

/-- The source presentable to target `t` now (R356). -/
def State.presentable (s : State) (t : Nat) : Option Nat :=
  if (s.stackOf t).length ≥ 16 then none else s.bestSource (s.eligible t)

/-- Arbitration's bookkeeping: sources newly withheld by a full stack are counted, and are free to count again once
they are presentable or no longer pending; a doorbell with nothing presentable is ready to ring (R357, R363). -/
def State.arbitrate (s : State) : State :=
  let s := s.enabledSources.foldl (fun s n =>
    let t := s.get F.INC_SRC_target 0 n
    let x := s.src n
    if t ≤ 17 && (s.stackOf t).length ≥ 16 && s.pendingSrc n && decide (s.get F.INC_SRC_prio 0 n > s.runPrio t) then
      if x.withheld then s else (s.setSrc n { x with withheld := true }).count F.INC_CNT_stack_full
    else if x.withheld && (!s.pendingSrc n || s.presentable t == some n) then s.setSrc n { x with withheld := false } else s) s
  [0, 1].foldl (fun s d =>
    if (s.presentable (16 + d)).isNone then { s with inc := { s.inc with doorbell := s.inc.doorbell.put d false } } else s) s

/-- A doorbell's message on its host port, while it is enabled and the link carries it (R363). -/
def State.ring (s : State) (d : Nat) : State :=
  if s.flag F.INC_DB_CTRL_en 0 d && (s.sys.pcie[d]?).getD false then s.emit (.msix d (s.get F.INC_DB_CTRL_vec 0 d)) else s

/-- An event of edge source `n` (R354, R355). -/
def State.intEvent (s : State) (n : Nat) : State :=
  if n = 0 ∨ n ≥ 4096 ∨ levelSource n ∨ s.get F.INC_SRC_prio 0 n = 0 then s
  else (s.setSrc n { s.src n with latch := true }).arbitrate

/-- The enabled watches of a queue fire (R353). -/
def State.fireWatches (s : State) (q : Nat) : State :=
  ((s.written .INC_QWATCH).filter (fun e => bit e.2.2 63 && fld e.2.2 19 0 == q)).foldl (fun s e => s.intEvent (0x800 + e.2.1)) s

/-- The control core or doorbell number of a target's own master. -/
def ownMaster (t : Nat) : Master := if t < 16 then .ctl t else if t = 16 then .hif0 else .hif1

/-- A claim by the target's own master (R358). -/
def State.claimInt (s : State) (t : Nat) : Nat × State :=
  match s.presentable t with
  | none => (0, s.count F.INC_CNT_none)
  | some n =>
    let x := s.src n
    let s1 := s.setSrc n { x with active := true, claimedBy := t, withheld := false, latch := x.latch && levelSource n }
    let s1 := { s1 with inc := { s1.inc with
      claims := s1.inc.claims.put t ((n, s.runPrio t) :: s.stackOf t)
      running := s1.inc.running.put t (s.get F.INC_SRC_prio 0 n) } }
    (n, s1.arbitrate)

/-- An EOI write by the target's own master (R359, R363). -/
def State.eoiInt (s : State) (t n : Nat) : State :=
  match s.stackOf t with
  | [] => s.count F.INC_CNT_eoi_err
  | (m, before) :: rest =>
    if m ≠ n then s.count F.INC_CNT_eoi_err else
      let s := s.setSrc n { s.src n with active := false }
      let s := { s with inc := { s.inc with claims := s.inc.claims.put t rest, running := s.inc.running.put t before } }
      let s := if levelSource n && !s.levelInput n then s.count F.INC_CNT_lvl_low else s
      let s := s.arbitrate
      if t ≥ 16 && (s.presentable t).isSome then
        ({ s with inc := { s.inc with doorbell := s.inc.doorbell.put (t - 16) true } }).ring (t - 16)
      else s

/-- A target's stack emptied; its sources are no longer active (R364). -/
def State.resetTarget (s : State) (t : Nat) : State :=
  let s1 := (s.stackOf t).foldl (fun s e => s.setSrc e.1 { s.src e.1 with active := false }) s
  ({ s1 with inc := { s1.inc with claims := s1.inc.claims.put t [], running := s1.inc.running.put t 0 } }).arbitrate

/-- The write of INC_SRC: priority 0 clears a latched edge (R354, R361). -/
def State.wrIntSrc (s : State) (n : Nat) (v : Reg64) : State :=
  let s := s.setReg .INC_SRC (codedWrite RegName.INC_SRC.info (s.reg .INC_SRC 0 n) v) 0 n
  let s := if fld v 7 0 = 0 then s.setSrc n { s.src n with latch := false } else s
  s.arbitrate

/-- The write of INC_SW_SET[a]: an event for each bit set; bit 0 of a = 0 is reserved (R353, R365). -/
def State.wrSwSet (s : State) (a : Nat) (v : Reg64) : State :=
  (List.range 64).foldl (fun s b => if bit v b then s.intEvent (64 * a + b) else s) s

/-- INC_SRC as it reads. -/
def State.intSrcView (s : State) (n : Nat) : Reg64 :=
  let x := s.src n
  let v := s.reg .INC_SRC 0 n
  let v := putFld (putFld v 63 63 (bnat (s.pendingSrc n))) 62 62 (bnat x.active)
  putFld (putFld v 60 60 (bnat (levelSource n && s.levelInput n))) 44 40 x.claimedBy

/-- INC_TGT_STAT as it reads. -/
def State.tgtStatView (s : State) (t : Nat) : Reg64 :=
  let st := s.stackOf t
  BitVec.ofNat 64 (s.runPrio t * 2 ^ 56 + st.length * 2 ^ 51 + ((st.head?.map (·.1)).getD 0) * 2 ^ 36 + (s.presentable t).getD 0)

/-- INC_SW_SET as it reads: the latches (R355). -/
def State.swSetView (s : State) (a : Nat) : Reg64 :=
  BitVec.ofNat 64 ((List.range 64).foldl (fun n b => n + (if (s.src (64 * a + b)).latch then 2 ^ b else 0)) 0)

end Sys2Proof.Machine
end

