-- ==== Sys2Proof/Machine/QueueOps.lean ====
section
/-! DEFINITION. Queues at their home nodes (11): words, items, commits, pops, marks, rewind, release, flush, commands,
and the words of a halted unit. -/
namespace Sys2Proof.Machine

/-- The status word of a queue operation (09 R248). -/
def statusWord (code : Nat) (last : Bool := false) (skipped : Nat := 0) : Reg64 :=
  BitVec.ofNat 64 (skipped % 2 ^ 32 * 2 ^ 32 + bnat last * 2 ^ 8 + code)

/-! ### Commits (R282, R283) -/

/-- The oldest item discarded: rel advances, and rd when it pointed there; marks at the item become stale. -/
def Queue.discard (a : Queue) : Queue :=
  { a with
    items := a.items.drop 1
    rd := if a.rd = a.rel then (a.rd + 1) % 2 ^ 17 else a.rd
    rel := (a.rel + 1) % 2 ^ 17
    marks := a.marks.map (fun m => if m.pos = a.rel ∧ m.stale = false then { m with stale := true } else m)
    lost := (a.lost + 1) % 2 ^ 32 }

/-- Is this queue the spill queue of an open queue? -/
def State.isSpill (s : State) (q : Nat) : Bool := s.queues.any (fun e => e.2.spill == q)

/-- The oldest item of a full queue discarded, counted and spilled (R282). -/
def State.discardOldest (s : State) (q : Nat) (a : Queue) : State :=
  let s1 := (s.setQueue q a.discard).count F.MEM_Q_CNT_lost 1 (homeNode q)
  match a.items with
  | (w :: _) :: _ => if s.isSpill q then s1 else s1.pushItem (.mem (homeNode q)) a.spill [w]
  | _ => s1

/-- One release of an H-class queue's oldest item, read or not (R285, 04 R113). -/
def Queue.releaseOldest (a : Queue) : Queue :=
  let rel := (a.rel + 1) % 2 ^ 17
  { a with
    items := a.items.drop 1
    rd := if a.rd = a.rel then rel else a.rd
    rel := rel
    marks := a.marks.map (fun m => if m.pos = a.rel ∧ m.stale = false then { m with pos := rel } else m) }

/-- A commit of the oldest whole item of a queue that waits for its commit cycle (R279, R282), with the queue's watches
when the unread count rises from 0 to 1 (15 R353); a history item that leaves more than its leg keeps releases the oldest
in the same operation (04 R113). -/
def State.commit (s : State) (q : Nat) : State :=
  match s.queues.get? q with
  | none => s
  | some a =>
    match a.ready with
    | [] => s
    | r :: rest =>
      let a := { a with ready := rest }
      let s := s.setQueue q a
      let was := a.unread
      let s := if a.occ = 2 ^ a.log2cap then s.discardOldest q a else s
      match s.queues.get? q with
      | none => s
      | some a =>
        let a := { a with items := a.items ++ [r.words], wr := (a.wr + 1) % 2 ^ 17, pushed := (a.pushed + 1) % 2 ^ 32 }
        let a := match r.keep with
          | some d => if a.occ > d then a.releaseOldest else a
          | none => a
        let s := s.setQueue q a
        if was = 0 then s.fireWatches q else s

/-! ### Reading (R280, R281, R283-R285) -/

/-- The next word for a reader: status word and word (R280, R281). -/
def State.popWord (s : State) (p : Agent) (q : Nat) : Reg64 × Word × State :=
  match s.queues.get? q with
  | none => (statusWord 0x07, 0, s.badOp q)
  | some a =>
    match byAgent a.readBufs p with
    | some (w :: rest) =>
      let a := { a with readBufs := without a.readBufs p ++ (if rest.isEmpty then [] else [(p, rest)]) }
      (statusWord 0x00 rest.isEmpty, w, s.setQueue q a)
    | _ =>
      if a.unread = 0 then (statusWord 0x01 true, a.idle, s) else
        match a.head with
        | some (w :: rest) =>
          let a := a.take
          let a := { a with readBufs := a.readBufs ++ (if rest.isEmpty then [] else [(p, rest)]) }
          (statusWord 0x00 rest.isEmpty, w, s.setQueue q a)
        | _ => (statusWord 0x01 true, a.idle, s)

/-- Would a pop need a read buffer when the node has none free (log 31)? -/
def State.popBlocked (s : State) (p : Agent) (q : Nat) : Bool :=
  match s.queues.get? q with
  | none => false
  | some a => (byAgent a.readBufs p).isNone && a.unread != 0 && decide (((a.head.map List.length).getD 0) > 1) &&
      decide (s.bufferCount (homeNode q) ≥ 256)

/-- The queue of an H-class operation, or a bad operation counted (R283). -/
def State.hOp (s : State) (q : Nat) (f : Queue → Reg64 × Queue) : Reg64 × State :=
  match s.queues.get? q with
  | none => (statusWord 0x07, s.badOp q)
  | some a => if a.cls ≠ 2 then (statusWord 0x07, s.badOp q) else ((f a).1, s.setQueue q (f a).2)

/-- Mark k of a queue. -/
def Queue.mark (a : Queue) (k : Nat) : QMark := (a.marks[k % 4]?).getD ⟨false, 0⟩

/-- QMARK (R283). -/
def Queue.doMark (a : Queue) (k : Nat) : Reg64 × Queue :=
  (statusWord 0x00, { a with marks := setAt a.marks (k % 4) ⟨false, a.rd⟩ })

/-- QREWIND (R284). -/
def Queue.doRewind (a : Queue) (k : Nat) : Reg64 × Queue :=
  let m := a.mark k
  if m.stale then (statusWord 0x02 false ((a.rel + 2 ^ 17 - m.pos) % 2 ^ 17), { a with rd := a.rel })
  else (statusWord 0x00, { a with rd := m.pos })

/-- Space freed up to `to` (R285). -/
def Queue.releaseTo (a : Queue) (pos : Nat) : Queue :=
  let d := (pos + 2 ^ 17 - a.rel) % 2 ^ 17
  { a with
    items := a.items.drop d
    rd := if d > a.readNo then pos else a.rd
    rel := pos
    marks := a.marks.map (fun m =>
      if m.stale = false ∧ (m.pos + 2 ^ 17 - a.rel) % 2 ^ 17 < d then { m with pos := pos } else m) }

/-- QRELEASE (R285). -/
def Queue.doRelease (a : Queue) (flags : Nat) : Reg64 × Queue :=
  if flags / 4 % 2 = 1 then (statusWord 0x00, a.releaseTo a.rd)
  else
    let m := a.mark flags
    if m.stale then (statusWord 0x02 false ((a.rel + 2 ^ 17 - m.pos) % 2 ^ 17), a)
    else (statusWord 0x00, a.releaseTo m.pos)

/-- QFLUSH's effect on an F-class queue (R286). -/
def Queue.flushed (a : Queue) : Queue :=
  { a with rd := a.wr, rel := a.wr, items := [], ready := [], partials := [],
           dropping := a.dropping ++ a.partials.map (·.1) }

/-- QFLUSH (R286): F-class only. -/
def State.flushQueue (s : State) (q : Nat) : Reg64 × State :=
  match s.queues.get? q with
  | none => (statusWord 0x07, s.badOp q)
  | some a =>
    if a.cls ≠ 1 then (statusWord 0x07, s.badOp q)
    else
      let s := s.setQueue q a.flushed
      (statusWord 0x00, State.serveWaiting (homeNode q) (s.qnode (homeNode q)).waiting.length s)

/-! ### Commands of a node (R276, R277) -/

/-- The descriptor of a queue. -/
def State.descAddr (s : State) (node q : Nat) : Nat := s.get F.MEM_QDESC_BASE_base node * 2 ^ 20 + 64 * (q % 32768)

/-- Words 2 and 3 written back (R276). -/
def State.writeBackQueue (s : State) (node q : Nat) (a : Queue) : State :=
  let w2 := a.wr * 2 ^ 111 + a.rd * 2 ^ 94 + a.rel * 2 ^ 77 +
    (List.range 4).foldl (fun n k => n + (bnat (a.mark k).stale * 2 ^ 17 + (a.mark k).pos) * 2 ^ (19 * k)) 0
  let w3 := a.lost * 2 ^ 96 + a.flushDrop * 2 ^ 80 + a.bad * 2 ^ 64 + a.pushed * 2 ^ 32 + a.popped
  s.setWords (s.descAddr node q + 32) [BitVec.ofNat 128 w2, BitVec.ofNat 128 w3]

/-- A queue as an open leaves it (R277). -/
def openedQueue (w0 idle : Word) : Queue :=
  { cls := fld w0 127 124, slotWords := fld w0 123 121 + 1, log2cap := fld w0 120 116, spill := fld w0 115 96, idle := idle,
    wr := 0, rd := 0, rel := 0, marks := List.replicate 4 ⟨false, 0⟩, lost := 0, flushDrop := 0, bad := 0, pushed := 0,
    popped := 0, items := [], partials := [], ready := [], readBufs := [], feed := false, dropping := [] }

/-- May a descriptor be opened (R276, R277)? -/
def descLegal (w0 : Word) : Bool :=
  (fld w0 127 124 == 1 || fld w0 127 124 == 2) && decide (4 ≤ fld w0 120 116 ∧ fld w0 120 116 ≤ 16) && fld w0 47 0 % 512 == 0

/-- Word 3 of a descriptor zeroed at an open. -/
def State.clearCounts (s : State) (node q : Nat) : State := s.setWord (s.descAddr node q + 48) 0

/-- The effect of a queue command: result 1 or 3 (R277). -/
def State.queueCmd (s : State) (node op q : Nat) : Nat × State :=
  match op, s.queues.get? q with
  | 1, none =>
    let w0 := s.word (s.descAddr node q)
    if q = noQueue ∨ homeNode q ≠ node ∨ descLegal w0 = false then (3, s)
    else (1, (s.clearCounts node q).setQueue q (openedQueue w0 (s.word (s.descAddr node q + 16))))
  | 2, some a =>
    if homeNode q ≠ node then (3, s) else
      let s := s.writeBackQueue node q { a with items := [] }
      let s := { s with queues := s.queues.del q }
      let s := s.setQnode node { s.qnode node with waiting := (s.qnode node).waiting.filter (fun e => e.2.1 != q) }
      (1, State.serveWaiting node (s.qnode node).waiting.length s)
  | 3, some a => if homeNode q ≠ node then (3, s) else (1, s.writeBackQueue node q a)
  | 4, some a => if homeNode q ≠ node ∨ a.cls ≠ 1 then (3, s) else (1, (s.flushQueue q).2)
  | _, _ => (3, s)

/-- A queue command reported (R290). -/
def State.queueReport (s : State) (node ticket result : Nat) : State :=
  let s := (s.put F.MEM_Q_STAT_ticket ticket node).put F.MEM_Q_STAT_result result node
  if result = 1 then s.bump F.MEM_Q_STAT_done 1 node else s

/-- The write of MEM_Q_CMD: taken into the node's queue of 16, or refused (R277). -/
def State.wrQueueCmd (s : State) (node : Nat) (v : Reg64) : State :=
  let x := s.qnode node
  if x.cmds.length ≥ 16 then s.queueReport node (fld v 59 52) 2
  else s.setQnode node { x with cmds := x.cmds ++ [⟨fld v 63 60, fld v 59 52, fld v 19 0, 0, 0, none⟩] }

/-- The command at the head of a node's queue served and reported. -/
def State.serveQueueCmd (s : State) (node : Nat) : State :=
  match (s.qnode node).cmds with
  | [] => s
  | c :: rest =>
    let s := s.setQnode node { s.qnode node with cmds := rest }
    let (r, s) := s.queueCmd node c.op c.a
    s.queueReport node c.ticket r

/-- Every command of a node's queue served. -/
def State.serveQueueCmds (node : Nat) : Nat → State → State
  | 0, s => s
  | k + 1, s => State.serveQueueCmds node k (s.serveQueueCmd node)

/-- What passes while no command waits: every node serves the queue commands written to it (R277; log 22). -/
def State.idle (s : State) : State :=
  (List.range 32).foldl (fun s n => if (s.qnode n).cmds.isEmpty then s else State.serveQueueCmds n 16 s) s

/-- The write of MEM_QDESC_BASE: only while no queue of the node is open (R290). -/
def State.wrQdescBase (s : State) (node : Nat) (v : Reg64) : State :=
  if s.queues.any (fun e => homeNode e.1 == node) then s.put F.MEM_Q_STAT_result 3 node
  else s.put F.MEM_QDESC_BASE_base (fld v 47 20) node

/-! ### Halted units (R288) -/

/-- Items that waiting words of one producer to one queue began, beyond the partial item they may continue. -/
def begunItems (ws : List (Agent × Nat × Word × Bool × Option Nat)) (continues : Bool) : Nat :=
  let lasts := (ws.filter (fun e => e.2.2.2.1)).length
  let opened := match ws.getLast? with
    | some (_, _, _, false, _) => 1
    | _ => 0
  lasts + opened - (if continues && !ws.isEmpty then 1 else 0)

/-- One queue without the words of a halted unit. -/
def State.haltQueue (s : State) (who : Agent) (q : Nat) : State :=
  match s.queues.get? q with
  | none => s
  | some a =>
    let parts := (byAgent a.partials who).isSome
    let waits := (s.qnode (homeNode q)).waiting.filter (fun e => e.1 == who && e.2.1 == q)
    let whole := (a.ready.filter (fun r => r.prod == who)).length
    let bads := bnat parts + whole + begunItems waits parts
    let losts := (a.readBufs.filter (fun e => e.1 == who)).length
    let a := { a with
      partials := without a.partials who
      ready := a.ready.filter (fun r => r.prod != who)
      readBufs := without a.readBufs who
      dropping := a.dropping.filter (· != who)
      bad := satAdd 16 a.bad bads
      lost := (a.lost + losts) % 2 ^ 32 }
    ((s.setQueue q a).count F.MEM_Q_CNT_bad bads (homeNode q)).count F.MEM_Q_CNT_lost losts (homeNode q)

/-- Every word that a halted unit has at the nodes discarded (R288). -/
def State.haltAgent (s : State) (who : Agent) : State :=
  let s := (s.queues.map (·.1)).foldl (fun s q => s.haltQueue who q) s
  let s := { s with mem := { s.mem with
    qnodes := s.mem.qnodes.map (fun e : Nat × QNode => (e.1, { e.2 with waiting := e.2.waiting.filter (fun w => w.1 != who) })) } }
  s.mem.qnodes.foldl (fun s e => State.serveWaiting e.1 e.2.waiting.length s) s

end Sys2Proof.Machine
end

