-- ==== Sys2Proof/Machine/CodecOps.lean ====
section
/-! DEFINITION. Codec cores (05, 06): gangs, job choice, the feed, the start of decode and encode jobs, status and event items,
pauses, preemption and halts. -/
namespace Sys2Proof.Machine

/-! ### Jobs and their fields (05 R125, 06 R154) -/

/-- The operation of a job. -/
def Job.op (j : Job) : Nat := fld j.w0 51 48

/-- The address of a job's context. -/
def Job.ctx (j : Job) : Nat := fld j.w0 47 16 * 65536

/-- How a job divides its picture (05 R125, 06 R154). -/
def Job.part (j : Job) : Nat := fld j.w0 10 9

/-- The class of a job: decode jobs rank as class 0 (06 R156). -/
def jobClass (w0 : Word) : Nat := if isEncode w0 then fld w0 8 7 else 0

/-- A job as it is read from its queue. -/
def newJob (w0 w1 : Word) (queue : Nat) : Job :=
  { w0 := w0, w1 := w1, queue := queue, items := [], badItems := [], feedFails := 0, spent := 0, gap := false, late := 0, peek := false,
    gang := none, packets := 0, waiting := none, enc := 0, begun := false, source := [], inBad := [], targets := [], bufWait := false,
    key := false, keyCause := 0, sweepStart := false, sweepDone := false, tpos := 0, reads := 0, coalesced := 0, w3 := 0,
    paused := false }

/-- A codec core set, with the up-time from which it is idle. -/
def State.setVcc (s : State) (n : Nat) (x : Vcc) : State :=
  let x := if x.cur.isNone && (s.vccOf n).cur.isSome then { x with idleAt := s.upNs } else x
  ({ s with vcc := s.vcc.put n x }).showVcc n

/-! ### Gangs (05 R140, R148) -/

/-- The members of gang g, lead first. -/
def State.gangMembers (s : State) (g : Nat) : List Nat :=
  let size := max 2 (s.get F.VCC_GANG_size 0 g + 1)
  (List.range size).map (fun i => fld (s.reg .VCC_GANG 0 g) (6 * i + 5) (6 * i))

/-- The gang a job asks for, where the job's core is its lead (05 R140; log 58). -/
def State.gangOf (s : State) (n : Nat) (w0 : Word) : Option Nat :=
  let g := fld w0 14 11
  if bit w0 15 && s.flag F.VCC_GANG_en 0 g && (s.gangMembers g).head? == some n then some g else none

/-- May a gang be enabled: one quadrant, no member twice or in another enabled gang (05 R148)? -/
def State.gangLegal (s : State) (g : Nat) (members : List Nat) : Bool :=
  members.all (fun m => m / 16 == (members.headD 0) / 16) &&
  (List.range members.length).all (fun i => (List.range i).all (fun k => members[i]? != members[k]?)) &&
  (List.range 16).all (fun h => h == g || !s.flag F.VCC_GANG_en 0 h || (s.gangMembers h).all (fun m => !members.contains m))

/-- The write of VCC_GANG[g] (05 R148). DESIGN CHOICE (log 25): a refused write stores size and members. -/
def State.wrGang (s : State) (g : Nat) (v : Reg64) : State :=
  let s := ((s.put F.VCC_GANG_size (fld v 50 48) 0 g).put F.VCC_GANG_members (fld v 47 0) 0 g).put F.VCC_GANG_en 0 0 g
  if bit v 63 = false then s
  else if s.gangLegal g (s.gangMembers g) then (s.put F.VCC_GANG_en 1 0 g).put F.VCC_GANG_refused 0 0 g
  else s.put F.VCC_GANG_refused 1 0 g

/-- The write of VCC_TAP_BASE: only under the condition of 03 R90. -/
def State.wrTapBase (s : State) (v : Reg64) : State := if s.ingressOff then s.put F.VCC_TAP_BASE_base (fld v 47 20) else s

/-- The members of a gang join its lead's picture: those in service, and power-gated ones, which wake; a draining, drained or halted
member stays out (05 R140, R141; 18 R418). -/
def State.gangJoin (s : State) (g : Nat) : State :=
  match s.gangMembers g with
  | [] => s
  | lead :: rest => rest.foldl (fun s m =>
    let st := s.get F.VCC_STATUS_state m
    if st = 5 ∨ st = 6 ∨ s.sys.draining.contains (.codec, m) then s
    else (s.put F.VCC_STATUS_state 4 m).setVcc m { s.vccOf m with gang := some lead }) s

/-- The members that work for a lead leave. -/
def State.gangLeave (s : State) (lead : Nat) : State :=
  (s.vcc.filter (fun e => e.2.gang == some lead)).foldl (fun s e => s.setVcc e.1 { s.vccOf e.1 with gang := none }) s

/-- The cores at work on a job: its own and the members of its gang. -/
def State.crew (s : State) (n : Nat) : Nat := 1 + (s.vcc.filter (fun e => e.2.gang == some n)).length

/-! ### The feed (05 R122-R124) -/

/-- Sequence number of a feed item: of the RTP packet in its buffer. -/
def State.itemSeq (s : State) (i : Word × Word) : Nat := netAt (s.rd (fld i.2 47 0) 12) 2 2

/-- RTP timestamp of a feed item. -/
def State.itemTs (s : State) (i : Word × Word) : Nat := netAt (s.rd (fld i.2 47 0) 12) 4 4

/-- A feed as the next job reads it: rewound to mark 0 after a void picture (05 R146); with the skipped items of a stale
mark. -/
def feedView (a : Queue) (rewind : Bool) : Queue × Bool :=
  if rewind then
    let r := a.doRewind 0
    (r.2, (a.mark 0).stale && (r.1.toNat != 2))
  else (a, false)

/-- The unread items of a queue. -/
def Queue.unreadItems (a : Queue) : List (Word × Word) := (a.items.drop a.readNo).map (fun i => ((i[0]?).getD 0, (i[1]?).getD 0))

/-- What a job finds in its feed: the late items in front, the picture's items, the items up to the picture's last, and the
late ones among them. -/
structure FeedScan where
  before : Nat
  picture : List (Word × Word)
  span : Nat
  late : Nat
  deriving DecidableEq, Repr

/-- Is an item late (05 R124)? -/
def State.isLate (s : State) (c2 : Word) (i : Word × Word) : Bool :=
  bit c2 62 && decide ((fld c2 47 32 + 65536 - s.itemSeq i) % 65536 ≤ 32768)

/-- One pass over the unread items: `k` items seen, `l` late ones among them since the last item of the picture. -/
def State.scanFeed (s : State) (c2 : Word) (ts : Option Nat) : List (Word × Word) → Nat → Nat → FeedScan → FeedScan
  | [], _, _, r => r
  | i :: rest, k, l, r =>
    if s.isLate c2 i then
      if r.picture.isEmpty then State.scanFeed s c2 ts rest (k + 1) 0 { r with before := r.before + 1, span := k + 1, late := r.late + 1 }
      else State.scanFeed s c2 ts rest (k + 1) (l + 1) r
    else
      match ts with
      | none => State.scanFeed s c2 (some (s.itemTs i)) rest (k + 1) 0 { r with picture := [i], span := k + 1 }
      | some t => if s.itemTs i = t then
          State.scanFeed s c2 ts rest (k + 1) 0 { r with picture := r.picture ++ [i], span := k + 1, late := r.late + l }
        else r

/-- The picture at the read point of a feed (05 R124). -/
def State.feedScan (s : State) (c2 : Word) (a : Queue) : FeedScan := s.scanFeed c2 none a.unreadItems 0 0 ⟨0, [], 0, 0⟩

/-- An item inserted by its distance from a base sequence. -/
def State.insertSeq (s : State) (base : Nat) (i : Word × Word) : List (Word × Word) → List (Word × Word)
  | [] => [i]
  | j :: js =>
    if (s.itemSeq i + 65536 - base) % 65536 < (s.itemSeq j + 65536 - base) % 65536 then i :: j :: js
    else j :: State.insertSeq s base i js

/-- A picture's items in sequence order (05 R124). -/
def State.sortItems (s : State) (c2 : Word) (l : List (Word × Word)) : List (Word × Word) :=
  let base := if bit c2 62 then fld c2 47 32 + 1 else ((l.head?.map s.itemSeq).getD 0) + 32768
  l.foldl (fun r i => s.insertSeq (base % 65536) i r) []

/-- Does a sequence miss a number between neighbours? -/
def seqMissing : List Nat → Bool
  | a :: b :: r => (b + 65536 - a) % 65536 > 1 || seqMissing (b :: r)
  | _ => false

/-- Has a picture in sequence order a gap (05 R124)? -/
def State.hasGap (s : State) (c2 : Word) (l : List (Word × Word)) : Bool :=
  match l with
  | [] => true
  | i :: _ =>
    seqMissing (l.map s.itemSeq) || !bit i.1 26 || (bit c2 62 && s.itemSeq i != (fld c2 47 32 + 1) % 65536) || l.all (fun j => !bit j.1 25)

/-! ### Choosing a job (05 R126, 06 R156) -/

/-- A job that a core could take: at the head of a job queue, or suspended. -/
structure JobChoice where
  job : Job
  susp : Bool
  deriving DecidableEq, Repr

/-- The head job of an open queue. -/
def State.headJob (s : State) (q : Nat) : Option Job :=
  match s.queues.get? q with
  | none => none
  | some a => if a.cls ≠ 1 ∨ a.unread = 0 then none else
    match a.head with
    | some l => some (newJob ((l[0]?).getD 0) ((l[1]?).getD 0) q)
    | none => none

/-- The feed of a decode context as its next job reads it. -/
def State.feedOf (s : State) (ctx : Nat) : Option (Nat × Queue × Bool) :=
  let q := fld (s.word (ctx + 16)) 127 108
  match s.queues.get? q with
  | some a => if a.cls = 2 then some (q, feedView a (bit (s.word (ctx + 32)) 61)) else none
  | none => none

/-- Is the picture of a decode context complete (05 R124)? -/
def State.pictureComplete (s : State) (ctx : Nat) : Bool :=
  match s.feedOf ctx with
  | none => false
  | some (_, a, stale) =>
    let c2 := s.word (ctx + 32)
    !stale && !s.hasGap c2 (s.sortItems c2 (s.feedScan c2 a).picture)

/-- Is a context or an op bad (05 R120, R125)? -/
def State.badDecode (s : State) (j : Job) : Bool :=
  let c0 := s.word j.ctx
  !(1 ≤ j.op && j.op ≤ 3) || !(1 ≤ fld c0 127 124 && fld c0 127 124 ≤ 3) || !bit c0 121

/-- May a head job be taken (05 R126; 06 R158): of the core's kind, its account not known exhausted, and for op 1 the picture
complete or start_by reached? -/
def State.mayTake (s : State) (n : Nat) (j : Job) : Bool :=
  let kind := s.get F.VCC_CTRL_kind n
  !(kind == 1 && isEncode j.w0) && !(kind == 2 && !isEncode j.w0) && !s.knowsOut (.vcc n) j.account &&
    (isEncode j.w0 || j.op != 1 || s.reached (fld j.w1 127 64) || s.pictureComplete j.ctx)

/-- The jobs a core could take now: its suspended ones and, unless it drains, the heads of its queues (06 R175). -/
def State.choices (s : State) (n : Nat) : List JobChoice :=
  let susp := ((s.vccOf n).susp.filter (fun j => !j.paused)).map (fun j => (⟨j, true⟩ : JobChoice))
  let qs := ((List.range 4).filter (fun j => s.flag F.VCC_JOBQ_en n j)).map (fun j => s.get F.VCC_JOBQ_queue n j)
  if s.sys.draining.contains (.codec, n) then susp
  else susp ++ ((qs.filterMap s.headJob).filter (s.mayTake n)).map (fun j => ⟨j, false⟩)

/-- Is choice `a` better than `b`: a higher class, then the earlier deadline, then suspended, then the lower queue? -/
def JobChoice.better (a b : JobChoice) : Bool :=
  let ka := jobClass a.job.w0
  let kb := jobClass b.job.w0
  let da := fld a.job.w0 127 64
  let db := fld b.job.w0 127 64
  decide (ka < kb) || (ka == kb && (decide (da < db) || (da == db && ((a.susp && !b.susp) ||
    (!a.susp && !b.susp && decide (a.job.queue < b.job.queue))))))

/-- The job a core takes. -/
def State.chosen (s : State) (n : Nat) : Option JobChoice :=
  (s.choices n).foldl (fun b c => match b with
    | none => some c
    | some d => if c.better d then some c else some d) none

/-- Is a core free to take a job? A draining core takes its suspended jobs alone (06 R175). -/
def State.vccFree (s : State) (n : Nat) : Bool :=
  s.flag F.VCC_CTRL_en n && (s.vccOf n).cur.isNone && (s.vccOf n).gang.isNone && decide (s.get F.VCC_STATUS_state n < 5)

/-! ### Status and events (05 R132-R134; 06 R172-R174) -/

/-- An event item of a context (05 R134). -/
def State.vccEvent (s : State) (n q ctx code sub detail : Nat) : State :=
  s.pushItem (.vcc n) q [s.stampWord (BitVec.ofNat 128 (code % 256 * 2 ^ 56 + ctx / 65536 * 2 ^ 24 + sub % 256 * 2 ^ 16 + min 65535 detail))]

/-- Is a job done after its deadline? -/
def State.jobLate (s : State) (j : Job) : Bool := s.mtime != fld j.w0 127 64 && s.reached (fld j.w0 127 64)

/-- The status item of a decode job: low bits of word 0 from `out` down, word 1 above the tag. -/
def State.decodeStatus (s : State) (n : Nat) (j : Job) (result low high : Nat) : State :=
  let q := fld (s.word (j.ctx + 16)) 107 88
  s.pushItem (.vcc n) q [s.stampWord (BitVec.ofNat 128 (result * 2 ^ 56 + bnat (s.jobLate j) * 2 ^ 46 + low)),
    BitVec.ofNat 128 (high * 2 ^ 32 + fld j.w1 31 0)]

/-- A job charged for codec-core cycles: what a free value says of the work that the spec gives no number (05 R144, 06 R158; log 59). -/
def State.chargeSome (s : State) (a : Nat) : Nat × State :=
  let (n, s) := s.fresh
  (n, s.charge a 1 n)

/-- The status item of a job that ends without a picture: what would name the picture is a free value, but for the RTP timestamp of the
items it read; so are its cycles, which are charged (log 59). -/
def State.emptyStatus (s : State) (n : Nat) (j : Job) (result : Nat) : State :=
  let (a, s) := s.fresh
  let (b, s) := s.fresh
  let (c, s) := s.chargeSome j.account
  let cycles := (j.spent + c) / 64 % 2 ^ 24
  if isEncode j.w0 then
    let q := fld (s.word (j.ctx + 16)) 107 88
    s.pushItem (.vcc n) q [s.stampWord (BitVec.ofNat 128 (result * 2 ^ 56 + bnat (s.jobLate j) * 2 ^ 50 +
      bnat j.bufWait * 2 ^ 48 + a % 32 * 2 ^ 43)),
      BitVec.ofNat 128 (j.packets % 65536 * 2 ^ 80 + min 255 j.inBad.length * 2 ^ 72 + cycles * 2 ^ 48 + fld j.w1 31 0)]
  else
    let ts := (j.items.head?.map s.itemTs).getD (b / 2 ^ 28 % 2 ^ 32)
    s.decodeStatus n j result (a % 32 * 2 ^ 50 + a / 32 % 64 * 2 ^ 40 + a / 2 ^ 11 % 2 ^ 20)
      (ts * 2 ^ 64 + b % 2 ^ 28 * 2 ^ 36 + cycles * 2 ^ 12)

/-- A job ends on its core: the gang is free, the core idle. -/
def State.freeCore (s : State) (n : Nat) (j : Job) : State :=
  let s := s.setVcc n { s.vccOf n with cur := none }
  if j.gang.isSome then s.gangLeave n else s

/-- A job begins on its core, with the gang it asks for (05 R140). -/
def State.beginJob (s : State) (n : Nat) (j : Job) : State :=
  let g := s.gangOf n j.w0
  let s := s.setVcc n { s.vccOf n with cur := some { j with gang := g } }
  match g with
  | some g => s.gangJoin g
  | none => s

/-- The words of its context that a job reads as it starts, and the private bytes, whose number the spec leaves open (log 60). -/
def State.chargeContext (s : State) (a : Nat) : State :=
  let (n, s) := s.fresh
  s.chargeBytes a (64 + n % 65473)

/-! ### Taking a decode job (05 R124-R127) -/

/-- A field of a word in memory ored. -/
def State.setBit (s : State) (pa n v : Nat) : State := s.putWord pa n n v

/-- The word, by its offset in a decode context, and the bit that say a parameter set is held: kind 0 VPS, 1 SPS, 2 PPS, 3 sequence
header (log 60). -/
def paramPlace (p : Nat × Nat) : Nat × Nat :=
  match p.1 with
  | 0 => (64, 32 + p.2 % 16)
  | 1 => (64, p.2 % 32)
  | 2 => (80 + p.2 % 256 / 128 * 16, p.2 % 128)
  | _ => (64, 48)

/-- Op 2 (05 R127): the parameter sets are discarded with what they precede. -/
def State.resetContext (s : State) (ctx : Nat) : State :=
  let a := ctx + 32
  (((((s.putWord a 95 64 0).putWord a 63 63 0).putWord a 62 62 0).putWord a 61 61 0).putWord a 31 0 0).setWords (ctx + 64) [0, 0, 0]

/-- Op 3 (05 R127). -/
def State.releaseSlots (s : State) (ctx mask : Nat) : State :=
  let held := fld (s.word (ctx + 32)) 127 96
  s.putWord (ctx + 32) 127 96 (held &&& (2 ^ 32 - 1 - mask % 2 ^ 32))

/-- Items read by a job: rd moves past them (05 R124). -/
def Queue.readOn (a : Queue) (k : Nat) : Queue := { a with rd := (a.rd + k) % 2 ^ 17, popped := (a.popped + k) % 2 ^ 32 }

/-- Late items in front of a picture are released, mark 0 is set at its first item and the picture is read (05 R124); with no item of
a picture nothing is released, and the feed stays as the job read it (05 R126, R146). -/
def State.readPicture (s : State) (q : Nat) (a : Queue) (r : FeedScan) : State :=
  if r.picture.isEmpty then s.setQueue q a
  else
    let a := a.readOn r.before
    let a := if r.before = 0 then a else a.releaseTo a.rd
    s.setQueue q ((a.doMark 0).2.readOn (r.span - r.before))

/-- The feed buffers of a picture read (05 R137, R144): the items with a tile that fails, by place, and how many tiles fail. -/
def State.checkFeed (s : State) (n : Nat) (items : List (Word × Word)) : List Nat × Nat × State :=
  items.zipIdx.foldl (fun (r : List Nat × Nat × State) e =>
    let (s, bad) := r.2.2.verifyBy (.vcc n) .decoder (ceilDiv (fld e.1.1 43 30) 512) (fld e.1.2 47 0)
    (if bad.isEmpty then r.1 else r.1 ++ [e.2], r.2.1 + bad.length, s)) ([], 0, s)

/-- An op 1 job starts: its picture is read and its buffers are verified; with no item, the job ends with result 0x01 (05 R124, R126,
R137). -/
def State.startDecode (s : State) (n : Nat) (j : Job) : State :=
  let s := s.chargeContext j.account
  let c2 := s.word (j.ctx + 32)
  let (r, stale, peek, s) := match s.feedOf j.ctx with
    | none => ((⟨0, [], 0, 0⟩ : FeedScan), false, false, s)
    | some (q, a, stale) =>
      let r := s.feedScan c2 a
      (r, stale, decide (r.span < a.unread), s.readPicture q a r)
  if r.picture.isEmpty then
    (s.setBit (j.ctx + 32) 61 0).emptyStatus n j 0x01
  else
    let items := s.sortItems c2 r.picture
    let (bad, fails, s) := s.checkFeed n items
    let s := (s.count F.VCC_CNT_crc_fail fails n).chargeBytes j.account (items.foldl (fun m i => m + fld i.1 43 30) 0)
    let s := if fails = 0 then s else s.vccEvent n (fld (s.word (j.ctx + 16)) 87 68) j.ctx 4 0 fails
    s.beginJob n { j with items := items, badItems := bad, feedFails := fails, gap := stale || s.hasGap c2 items, late := r.late, peek := peek }

/-- A decode job taken from its queue. -/
def State.runDecode (s : State) (n : Nat) (j : Job) : State :=
  if s.badDecode j then s.emptyStatus n j 0x08
  else if j.op = 2 then (s.resetContext j.ctx).emptyStatus n j 0x09
  else if j.op = 3 then (s.releaseSlots j.ctx (fld j.w1 63 32)).emptyStatus n j 0x0A
  else s.startDecode n j

/-! ### Encode contexts (06 R150, R151, R166) -/

/-- Temporal layers of a mode: pictures per T0 picture (06 R150). -/
def cycleLen (mode : Nat) : Nat := match mode % 3 with | 0 => 1 | 1 => 2 | _ => 4

/-- Temporal layer at a position of the cycle (06 R150). -/
def cycleT (mode tpos : Nat) : Nat :=
  match mode % 3 with
  | 0 => 0
  | 1 => tpos % 2
  | _ => ([0, 2, 1, 2][tpos % 4]?).getD 0

/-- Spatial layers or encodings of a context (06 R150). -/
def layerCount (c0 : Word) : Nat := if fld c0 116 115 > 0 then fld c0 116 115 + 1 else fld c0 120 117 / 3 + 1

/-- Width or height of layer k of n (06 R150). -/
def layerDim (full n k : Nat) : Nat := ceilDiv (ceilDiv full (2 ^ (n - 1 - k))) 2 * 2

/-- CTU edge of a codec (06 R149). -/
def ctuEdge (codec : Nat) : Nat := if codec = 1 then 16 else 64

/-- The result that an encode context gives before any picture, 0 for none (06 R150, R151, R173). -/
def encodeCheck (c0 : Word) (gang : Bool) : Nat :=
  let codec := fld c0 127 124
  let mode := fld c0 120 117
  let n := fld c0 85 78
  let w := fld c0 113 100
  let h := fld c0 99 86
  if !(1 ≤ codec && codec ≤ 3) || !bit c0 121 || decide (mode > 8) || fld c0 116 115 == 3 ||
      !(n == 0 || (2 ≤ n && n ≤ 120)) then 0x08
  else if !(64 ≤ w && w ≤ 7680 && 64 ≤ h && h ≤ 4320) || w % 2 == 1 || h % 2 == 1 then 0x03
  else if (decide (mode > 2) && (codec != 3 || fld c0 116 115 != 0)) || (bit c0 114 && codec == 1) then 0x03
  else if (decide (w > 4096) || decide (h > 2304)) && !gang then 0x04
  else 0

/-- Twice the weight of a temporal layer (06 R166). -/
def weight2 (mode t : Nat) : Nat :=
  match mode % 3, t with
  | 0, _ => 2
  | 1, 0 => 3
  | 1, _ => 1
  | _, 0 => 4
  | _, 1 => 2
  | _, _ => 1

/-- Rate of layer k. -/
def rateOf (c2 : Word) (k : Nat) : Nat := fld c2 (127 - 20 * k) (108 - 20 * k)

/-- The target T of layer k at temporal layer t (06 R166). -/
def targetBits (c0 c2 : Word) (k t : Nat) : Nat := rateOf c2 k * fld c2 67 52 * weight2 (fld c0 120 117) t / 2000

/-- The floor bound F of a layer picture (06 R167): intra CTUs in a key picture or the refresh column, skips elsewhere. -/
def floorBound (c0 : Word) (k : Nat) (intra : Nat) : Nat :=
  let e := ctuEdge (fld c0 127 124)
  let n := layerCount c0
  let cw := ceilDiv (layerDim (fld c0 113 100) n k) e
  let ch := ceilDiv (layerDim (fld c0 99 86) n k) e
  let i := min intra cw
  i * ch * (e * e / 8) + (cw - i) * ch * 48 + 2048

/-- The columns that sweep picture i of length L codes intra in layer k (06 R162). -/
def refreshColumns (c0 : Word) (k i l : Nat) : Nat :=
  let cw := ceilDiv (layerDim (fld c0 113 100) (layerCount c0) k) (ctuEdge (fld c0 127 124))
  if l = 0 then 0 else (i + 1) * cw / l - i * cw / l

/-! ### Deciding an encode picture (06 R162-R164) -/

/-- A decision of R164: word 3 as the job will leave it, key and its cause, sweep start and end. -/
structure Decision where
  w3 : Word
  key : Bool
  cause : Nat
  sweepStart : Bool
  sweepDone : Bool
  tpos : Nat
  deriving DecidableEq, Repr

/-- The decision of R164 for the request kinds read. -/
def decideEncode (c0 w3 : Word) (forceKey first refFailed : Bool) (kinds : List Bool) : Decision :=
  let n := fld c0 85 78
  let must := first || bit w3 37 || refFailed
  let reqKey := kinds.any (fun k => !k)
  let reqAcc := kinds.any (fun k => k)
  let wantKey := forceKey || bit w3 39 || must || reqKey || (n == 0 && reqAcc)
  let wantAcc := reqAcc && n != 0
  let tpos := fld w3 28 27
  if wantKey && (must || forceKey || decide (fld w3 36 29 ≥ fld c0 76 69)) then
    let w3 := putFld (putFld (putFld (putFld (putFld w3 28 27 0) 36 29 0) 39 39 0) 38 38 0) 47 40 0
    ⟨w3, true, if first then 4 else if must then 3 else if forceKey then 2 else 1, false, false, 0⟩
  else
    let w3 := if wantKey then putFld w3 39 39 1 else if wantAcc then putFld w3 38 38 1 else w3
    let len := fld w3 47 40
    let pos := fld w3 55 48
    let sweeps := tpos == 0 && n != 0
    let acc := sweeps && bit w3 38 && (!bit w3 26 || pos == len)
    let norm := sweeps && !acc && (len == 0 || pos == len)
    let start (l a : Nat) (w : Word) : Word := putFld (putFld (putFld w 47 40 l) 26 26 a) 55 48 0
    let w3 := if acc then putFld (start (ceilDiv n 4) 1 w3) 38 38 0 else if norm then start n 0 w3 else w3
    let w3 := if sweeps then putFld w3 55 48 (fld w3 55 48 + 1) else w3
    let w3 := putFld w3 36 29 (min 255 (fld w3 36 29 + 1))
    ⟨w3, false, 0, acc || norm, sweeps && fld w3 55 48 == fld w3 47 40, tpos⟩

/-- Up to `k` request items popped: their kinds, rkind 1 true (06 R164). -/
def State.popRequests (q : Nat) : Nat → State → List Bool × State
  | 0, s => ([], s)
  | k + 1, s =>
    match s.popItem q with
    | some (i, s) =>
      let (l, s) := State.popRequests q k s
      (bit ((i[0]?).getD 0) 11 :: l, s)
    | none => ([], s)

/-- The first word of an encode context's private bytes: [0] a job has coded, [1] a reference tile failed, [10:2] temporal and spatial
layers whose rows' bits are kept, and from [16 + 8k] layer k's latest pictures (log 60). -/
def privWord (ctx : Nat) : Nat := ctx + 128

/-- Where the bits that the rows of layer k took at temporal layer t are kept, 4 bytes each, and the bit that says so (log 60). -/
def rowPlace (ctx k t : Nat) : Nat × Nat := (ctx + 4096 + 2048 * (3 * k + t), 2 + 3 * k + t)

/-- The weights w of the rows of a layer picture (06 R166): 1 where none are kept. -/
def State.rowWeights (s : State) (ctx k t rows : Nat) : List Nat :=
  let (a, b) := rowPlace ctx k t
  (List.range rows).map (fun r => if bit (s.word (privWord ctx)) b then leNat (s.rd (a + 4 * r) 4) else 1)

/-- The bits that a list adds up to. -/
def total (l : List Nat) : Nat := l.foldl (· + ·) 0

/-- The target of a layer picture: four times that of T0 for a key picture (06 R166). -/
def pictureTarget (c0 c2 : Word) (key : Bool) (k t : Nat) : Nat := targetBits c0 c2 k t * (if key then 4 else 1)

/-- The debt of layer k (06 R169). -/
def debtOf (w3 : Word) (k : Nat) : Nat := fld w3 (127 - 24 * k) (104 - 24 * k)

/-- The working budget P of a layer picture (06 R166). -/
def workingBudget (c0 c2 w3 : Word) (key : Bool) (k t : Nat) : Nat := pictureTarget c0 c2 key k t - debtOf w3 k / 2

/-- The targets of the rows of a layer picture (06 R166). -/
def State.rowTargets (s : State) (ctx : Nat) (w3 : Word) (key : Bool) (k t : Nat) : List Nat :=
  let c0 := s.word ctx
  let w := s.rowWeights ctx k t (ceilDiv (layerDim (fld c0 99 86) (layerCount c0) k) (ctuEdge (fld c0 127 124)))
  w.map (fun x => workingBudget c0 (s.word (ctx + 32)) w3 key k t * x / max 1 (total w))

/-! ### The input of an encode (06 R159, R160) -/

/-- A plane of the input surface at the output depth. -/
def State.inputPlane (s : State) (c0 : Word) (base c : Nat) : Plane :=
  let f := surfFmt (fld c0 123 122)
  let w := fld c0 113 100
  let h := fld c0 99 86
  let k := if c = 0 then 1 else 2
  (List.range (ceilDiv h k)).map (fun y => (List.range (ceilDiv w k)).map (fun x =>
    depthTo f.ten (bit c0 114) ((s.sampleAt f base w h c x y).getD 0)))

/-- A plane of half the width and height through the fixed 2:1 filter, which the spec does not state (log 91). -/
def halved (p : Plane) (w h : Nat) : Plane := (List.range h).map (fun y => (List.range w).map (fun x => Config.halve p x y))

/-- The pictures that the core makes of its input: of each layer, lowest first, Y, Cb, Cr, and Y at 1/4 and 1/16 area. -/
def State.encodeSource (s : State) (c0 : Word) (base : Nat) : List (List Plane) :=
  let n := layerCount c0
  let dim (k : Nat) : Nat × Nat := (layerDim (fld c0 113 100) n k, layerDim (fld c0 99 86) n k)
  let lower (l : List (List Plane)) (i : Nat) : List (List Plane) :=
    let (w, h) := dim (n - 2 - i)
    ((l.headD []).zipIdx.map (fun e => if e.2 = 0 then halved e.1 w h else halved e.1 (w / 2) (h / 2))) :: l
  let layers := (List.range (n - 1)).foldl lower [[s.inputPlane c0 base 0, s.inputPlane c0 base 1, s.inputPlane c0 base 2]]
  layers.zipIdx.map (fun e =>
    let (w, h) := dim e.2
    let y4 := halved (e.1.headD []) (ceilDiv w 2) (ceilDiv h 2)
    e.1 ++ [y4, halved y4 (ceilDiv w 4) (ceilDiv h 4)])

/-- The tiles of the input surface. -/
def inputTiles (c0 : Word) : Nat := surfTiles (surfFmt (fld c0 123 122)) (fld c0 113 100) (fld c0 99 86)

/-- An op 0x8 job starts: it decides its picture and reads its input (06 R155, R159, R160, R164). -/
def State.startEncode (s : State) (n : Nat) (j : Job) : State :=
  let c0 := s.word j.ctx
  let w3 := s.word (j.ctx + 48)
  let priv := s.word (privWord j.ctx)
  let (kinds, s) := State.popRequests (fld (s.word (j.ctx + 16)) 127 108) 64 s
  let pick (l : List Bool) := decideEncode c0 w3 (bit j.w0 6) (!bit priv 0) (bit priv 1) l
  let d := pick kinds
  let idle := bnat (!kinds.isEmpty && pick (kinds.take 1) == pick [])
  let a := fld j.w1 127 80
  let (s, bad) := s.verifyBy (.vcc n) .encoder (inputTiles c0) a
  let s := ((s.count F.VCC_CNT_crc_fail bad.length n).chargeContext j.account).chargeBytes j.account (512 * inputTiles c0)
  let s := if bad.isEmpty then s else s.vccEvent n (fld (s.word (j.ctx + 16)) 67 48) j.ctx 19 0 bad.length
  let t := cycleT (fld c0 120 117) d.tpos
  s.beginJob n { j with
    key := d.key, keyCause := d.cause, sweepStart := d.sweepStart, sweepDone := d.sweepDone, tpos := d.tpos, reads := kinds.length,
    coalesced := kinds.length - 1 + idle, w3 := d.w3, source := s.encodeSource c0 a, inBad := bad.map (fun p => p / 512 - a / 512),
    targets := (List.range (layerCount c0)).map (fun k => s.rowTargets j.ctx w3 d.key k t) }

/-- Bytes of one reconstructed picture of the reference area, and the address of picture `i` of layer `k` (06 R152). -/
def refBytes (c0 : Word) : Nat := ceilDiv (sheetBlocks (fld c0 113 100) (fld c0 99 86) * 512) 65536 * 65536
def refPlace (c0 c1 : Word) (k i : Nat) : Nat := fld c1 47 0 + (4 * k + i) * refBytes c0

/-- Op 0x9 (06 R155): word 3 and the private state zeroed. -/
def State.resetEncode (s : State) (ctx : Nat) : State := (s.setWord (ctx + 48) 0).setWord (privWord ctx) 0

/-- An encode job taken from its queue. -/
def State.runEncode (s : State) (n : Nat) (j : Job) : State :=
  let r := encodeCheck (s.word j.ctx) ((s.gangOf n j.w0).isSome)
  if j.op > 9 then s.emptyStatus n j 0x08
  else if j.op = 9 then
    if r = 0x08 then s.emptyStatus n j 0x08 else (s.resetEncode j.ctx).emptyStatus n j 0x09
  else if r ≠ 0 then s.emptyStatus n j r
  else s.startEncode n j

/-- The chosen job starts: a suspended one resumes, a head leaves its queue (05 R126, 06 R156-R158). -/
def State.takeChoice (s : State) (n : Nat) (c : JobChoice) : State :=
  if c.susp then
    s.setVcc n { s.vccOf n with cur := some c.job, susp := dropFirst (· == c.job) (s.vccOf n).susp }
  else
    match s.popItem c.job.queue with
    | none => s
    | some (_, s) => if isEncode c.job.w0 then s.runEncode n c.job else s.runDecode n c.job

/-- Is the outcome of taking a job not defined: a spatial target for H.264 or H.265, a second job for its context at once, or a
reference area outside guarded memory (05 R147, 06 R178)? The rule whose table says so. -/
def State.jobUndefined (s : State) (n : Nat) (c : JobChoice) : Option Nat :=
  let j := c.job
  let c0 := s.word j.ctx
  let twin (k : Job) : Bool := k.ctx == j.ctx && (k.op == 1 || k.op == 8)
  let held := s.vcc.any (fun e => (e.2.cur.map twin).getD false || e.2.susp.any twin)
  let area := s.allGuarded (refPlace c0 (s.word (j.ctx + 16)) 0 0) (4 * layerCount c0 * refBytes c0 / 512)
  if isEncode j.w0 then
    (if j.op = 8 ∧ c.susp = false ∧ (held ∨ (encodeCheck c0 ((s.gangOf n j.w0).isSome) = 0 ∧ area = false)) then some 178 else none)
  else if j.op ≠ 1 ∨ s.badDecode j then none
  else if held ∨ (fld c0 127 124 ≤ 2 ∧ fld c0 120 117 ≠ 0) then some 147 else none

/-- The rule that leaves the outcome of the core's next take not defined. -/
def State.takeUndefined (s : State) (n : Nat) : Option Nat := if s.vccFree n then (s.chosen n).bind (s.jobUndefined n) else none

/-- JOB_TAKE: an idle core takes its best job. -/
def State.jobTake (s : State) (n : Nat) : State :=
  if s.vccFree n = false then s else
    match s.chosen n with
    | none => s
    | some c => s.takeChoice n c

/-- The job that an expiry of start_by takes: the head of queue `j` of the core, where it is the one its idle core takes. -/
def State.expiryChoice (s : State) (n j : Nat) : Option JobChoice :=
  if s.vccFree n = false ∨ s.flag F.VCC_JOBQ_en n j = false then none
  else (s.chosen n).filter (fun c => !c.susp && c.job.queue == s.get F.VCC_JOBQ_queue n j && c.job.op == 1 &&
    s.reached (fld c.job.w1 127 64))

/-- START_BY_EXPIRY: the head job of queue `j` of the core has reached start_by and is the one its idle core takes. -/
def State.startByExpiry (s : State) (n j : Nat) : State :=
  match s.expiryChoice n j with
  | none => s
  | some c => s.takeChoice n c

/-! ### Pauses, preemption, halt (05 R144-R146; 06 R157, R158, R175) -/

/-- A CTU row ends: what it cost is charged (05 R144, 06 R158; log 59). -/
def State.rowEnds (s : State) (j : Job) : Job × State :=
  let (n, s) := s.chargeSome j.account
  ({ j with spent := j.spent + n }, s)

/-- A job saved as suspended (06 R157). -/
def State.suspend (s : State) (n : Nat) (j : Job) : State :=
  let x := s.vccOf n
  s.setVcc n { x with cur := none, susp := x.susp ++ [j] }

/-- May an encode job be suspended: on one core, with a place free (06 R157, R158)? -/
def State.canSuspend (s : State) (n : Nat) (j : Job) : Bool := isEncode j.w0 && j.gang.isNone && decide ((s.vccOf n).susp.length < 2)

/-- CODEC_BUDGET_PAUSE: a job at the end of a CTU row pauses where the core knows its account to be exhausted; an encode job on one
core is saved as suspended where a place is free. -/
def State.budgetPause (s : State) (n : Nat) : State :=
  match (s.vccOf n).cur with
  | none => s
  | some j =>
    if j.paused then s else
      let (j, s) := s.rowEnds j
      let j := { j with paused := s.knowsOut (.vcc n) j.account }
      if j.paused && s.canSuspend n j then s.suspend n j else s.setVcc n { s.vccOf n with cur := some j }

/-- Does a head job of a live class wait that preempts a job (06 R157)? -/
def State.preempts (s : State) (n : Nat) (j : Job) : Bool :=
  (s.choices n).any (fun c => !c.susp && decide (jobClass c.job.w0 ≤ 1 ∧ jobClass c.job.w0 < jobClass j.w0))

/-- ENCODE_PREEMPT: at the end of a CTU row the running encode job is saved as suspended. -/
def State.encodePreempt (s : State) (n : Nat) : State :=
  match (s.vccOf n).cur with
  | none => s
  | some j =>
    if s.canSuspend n j && !j.paused && s.preempts n j then
      let (j, s) := s.rowEnds j
      s.suspend n j
    else s

/-- The read buffer of a halted decode, with an item of the next picture, is discarded and counted (11 R288). -/
def State.dropPeek (s : State) (j : Job) : State :=
  let q := fld (s.word (j.ctx + 16)) 127 108
  match j.peek, s.queues.get? q with
  | true, some a => (s.setQueue q { a with lost := (a.lost + 1) % 2 ^ 32 }).count F.MEM_Q_CNT_lost 1 (homeNode q)
  | _, _ => s

/-- A job voided by a halt: void_last set, its item with result 0x07 (05 R121, R146; 06 R153, R175). -/
def State.voidJob (s : State) (n : Nat) (j : Job) : State :=
  let s := s.dropPeek j
  let s := if isEncode j.w0 then s.setBit (j.ctx + 48) 37 1 else s.setBit (j.ctx + 32) 61 1
  ((s.emptyStatus n j 0x07).bump F.VCC_CNT_pictures 1 n).count F.VCC_CNT_void 1 n

/-- The lead whose gang picture a core works on, the core itself for a job of its own. -/
def State.workLead (s : State) (n : Nat) : Nat := (s.vccOf n).gang.getD n

/-- A halt of a codec core: the words it has at the nodes are discarded (11 R288), then its job, its gang's picture and its suspended
jobs are voided, with items that the VCC block pushes (05 R141, R146; 06 R175). -/
def State.haltVcc (s : State) (n : Nat) : State :=
  let s := s.haltAgent (.vcc n)
  let lead := s.workLead n
  let s := match (s.vccOf lead).cur with
    | some j => if lead = n ∨ j.gang.isSome then (s.voidJob lead j).freeCore lead j else s
    | none => s
  let s := match (s.vccOf n).cur with
    | some j => (s.voidJob n j).freeCore n j
    | none => s
  let s := (s.vccOf n).susp.foldl (fun s j => s.voidJob n j) s
  s.setVcc n { s.vccOf n with susp := [] }

end Sys2Proof.Machine
end

