-- ==== Sys2Proof/Machine/DecodeOps.lean ====
section
/-! DEFINITION. Decoded pictures (05 R118-R143): references and the pictures that stand in for them, damage and concealment, output
slots, the context and the status item a decode leaves. -/
namespace Sys2Proof.Machine

/-! ### References (05 R137, R138) -/

/-- Where a decode context keeps the order of the picture in a slot (log 60). -/
def orderAddr (ctx slot : Nat) : Nat := ctx + 128 + 16 * slot

/-- The references that a context holds: slot and order. -/
def State.refsOf (s : State) (ctx : Nat) : List (Nat × Int) :=
  let refs := fld (s.word (ctx + 32)) 95 64
  ((List.range 32).filter (fun i => refs.testBit i)).map (fun i => (i, signed 64 (fld (s.word (orderAddr ctx i)) 63 0)))

/-- Is reference `a` nearer in output order than `b`; the earlier one on a tie (05 R138)? -/
def nearer (order : Int) (a b : Nat × Int) : Bool :=
  let d (r : Nat × Int) : Nat := (r.2 - order).natAbs
  decide (d a < d b) || (d a == d b && decide (a.2 < b.2))

/-- The nearest reference in output order. -/
def nearest (order : Int) (l : List (Nat × Int)) : Option (Nat × Int) :=
  l.foldl (fun b r => match b with
    | none => some r
    | some x => if nearer order r x then some r else some x) none

/-- The reference that a picture reads where it names one: that one, or the one that stands in (05 R138). -/
def refNamed (l : List (Nat × Int)) (order : Int) : Option (Nat × Int) :=
  match l.find? (fun r => r.2 == order) with
  | some r => some r
  | none => nearest order l

/-- The address of slot `k` of a decode context. -/
def pictureSlot (c0 : Word) (k : Nat) : Nat := fld c0 95 48 + k * fld c0 47 16

/-- The reads of reference tiles, each with the CTU, the slot and the tile's address. -/
def refReads (c0 : Word) (l : List (Nat × Int)) (f : DecodeFacts) : List (Nat × Nat × Nat) :=
  f.reads.filterMap (fun r => (refNamed l r.order).map (fun x => (r.ctu, x.1, pictureSlot c0 x.1 + 512 * r.tile)))

/-- Tiles read once each by a codec core (05 R137, R144): those that fail, reported, and all charged. -/
def State.readTiles (s : State) (n account : Nat) (kind : TileReader) (tiles : List Nat) : List Nat × State :=
  tiles.foldl (fun (r : List Nat × State) a =>
    let (s, bad) := r.2.verifyBy (.vcc n) kind 1 a
    (r.1 ++ bad, s.chargeBytes account 512)) ([], s)

/-! ### Damage (05 R135) -/

/-- The CTUs, by address, that damage conceals: from the one in which it was found up to the next boundary after it. -/
def stopped (f : DecodeFacts) (d : Damage) : List Nat :=
  let ends := f.boundaries.filter (fun b => if d.inside then decide (b > d.ctu) else decide (b ≥ d.ctu))
  ((ctuScan f).drop d.ctu).take (ends.foldl min (ctuCount f) - d.ctu)

/-- Do the findings agree with what the rules say of them? Findings that do not are no event (log 21). -/
def findingsFit (codec : Nat) (j : Job) (refs : List (Nat × Int)) (f : DecodeFacts) : Bool :=
  let has (k : Nat) : Bool := f.damage.any (fun d => d.kind == k)
  f.damage.all (fun d => decide (1 ≤ d.kind ∧ d.kind ≤ 7) && (if d.inside then decide (d.ctu < ctuCount f) else decide (d.ctu ≤ ctuCount f))) &&
    has 6 == j.gap && has 7 == !j.badItems.isEmpty && (ctuScan f).length == ctuCount f &&
    (match f.showOnly with
     | some k => codec == 3 && refs.any (fun r => r.1 == k) && f.damage.isEmpty
     | none =>
       let cw := ceilDiv f.width 2
       let ch := ceilDiv f.height 2
       planeFits f.lumaRows f.width f.height && (f.chroma == 0 || (planeFits f.cbRows cw ch && planeFits f.crRows cw ch)))

/-! ### Concealment (05 R136) -/

/-- A concealed CTU: its place in the cropped picture, its edge, its vector, the slot it is copied from. -/
structure Concealed where
  x : Int
  y : Int
  size : Nat
  mv : Int × Int
  slot : Option Nat
  deriving DecidableEq, Repr

/-- The median of up to three numbers, rounded toward zero. -/
def medianOf (l : List Int) : Int :=
  match l with
  | [] => 0
  | [a] => a
  | [a, b] => (a + b).tdiv 2
  | a :: b :: c :: _ => max (min a b) (min (max a b) c)

/-- The vector of a concealed CTU: the median of those of the decoded blocks beside it. -/
def concealMv (f : DecodeFacts) (hidden : List Nat) (a : Nat) : Int × Int :=
  let cols := ctuCols f
  let open_ (here : Bool) (b : Nat) (v : Option (Int × Int)) : Option (Int × Int) := if here && !hidden.contains b then v else none
  match f.around.find? (fun r => r.ctu == a) with
  | none => (0, 0)
  | some r =>
    let l := [open_ (a % cols != 0) (a - 1) r.left, open_ (decide (a ≥ cols)) (a - cols) r.top,
      open_ (decide (a ≥ cols) && (a + 1) % cols != 0) (a + 1 - cols) r.topRight].filterMap id
    (medianOf (l.map (·.1)), medianOf (l.map (·.2)))

/-- A CTU to conceal, its slot not yet chosen. -/
def concealedCtu (f : DecodeFacts) (hidden : List Nat) (a : Nat) : Concealed :=
  let cols := max 1 (ctuCols f)
  ⟨(a % cols * f.ctu : Nat) - f.cropX, (a / cols * f.ctu : Nat) - f.cropY, f.ctu, concealMv f hidden a, none⟩

/-- Is a sample of a component in a concealed CTU? `k` is the component's subsampling. -/
def concealedAt (l : List Concealed) (k x y : Nat) : Option Concealed :=
  l.find? (fun c => decide (c.x ≤ (k * x : Nat) ∧ (k * x : Nat) < c.x + c.size ∧ c.y ≤ (k * y : Nat) ∧ (k * y : Nat) < c.y + c.size))

/-- Where a concealed CTU copies a sample of a component from, within the picture (05 R136; log 61). -/
def copyFrom (z : Concealed) (w h k x y : Nat) : Nat × Nat :=
  ((clampInt ((x : Int) + z.mv.1.tdiv k) 0 (ceilDiv w k - 1 : Nat)).toNat, (clampInt ((y : Int) + z.mv.2.tdiv k) 0 (ceilDiv h k - 1 : Nat)).toNat)

/-- The tiles of the picture at `base` that a concealed CTU copies from. -/
def copyTiles (fmt : SurfFmt) (base w h : Nat) (z : Concealed) : List Nat :=
  let run (a : Int) (n k : Nat) : List Nat :=
    let lo := (max 0 a).toNat
    ((List.range ((min (n : Int) (a + z.size)).toNat - lo)).filter (fun i => (lo + i) % k == 0)).map (fun i => (lo + i) / k)
  ((List.range 3).flatMap (fun c =>
    let k := if c = 0 then 1 else 2
    (run z.y h k).flatMap (fun y => (run z.x w k).map (fun x =>
      let q := copyFrom z w h k x y
      (base + (samplePlace fmt w h c q.1 q.2).1) / 512 * 512)))).eraseDups

/-- The slot a concealed CTU is copied from: the nearest available reference whose tiles verify; one that fails is unavailable to it
(05 R136, R137). Answers the failing tiles too. -/
def State.pickRef (n account : Nat) (fmt : SurfFmt) (c0 : Word) (f : DecodeFacts) (z : Concealed) :
    Nat → List (Nat × Int) → State → Option Nat × List Nat × State
  | 0, _, s => (none, [], s)
  | fuel + 1, refs, s =>
    match nearest f.order refs with
    | none => (none, [], s)
    | some r =>
      let (bad, s) := s.readTiles n account .decoder (copyTiles fmt (pictureSlot c0 r.1) f.width f.height z)
      if bad.isEmpty then (some r.1, [], s) else
        let (k, more, s) := State.pickRef n account fmt c0 f z fuel (refs.filter (· != r)) s
        (k, bad ++ more, s)

/-- The concealed CTUs of a picture with the slots they are copied from; `lost` names CTUs and the slots unavailable to them. -/
def State.concealAll (s : State) (n account : Nat) (c0 : Word) (refs : List (Nat × Int)) (f : DecodeFacts) (hidden : List Nat)
    (lost : List (Nat × Nat)) : List Concealed × List Nat × State :=
  let fmt := surfFmt (fld c0 123 122)
  hidden.foldl (fun (r : List Concealed × List Nat × State) a =>
    let z := concealedCtu f hidden a
    let (k, bad, s) := State.pickRef n account fmt c0 f z 32 (refs.filter (fun x => !lost.contains (a, x.1))) r.2.2
    (r.1 ++ [{ z with slot := k }], r.2.1 ++ bad, s)) ([], [], s)

/-- The nearest decoded sample on a path, from a distance outward. -/
def nearestOn (p : Plane) (l : List Concealed) (k : Nat) (at' : Nat → Nat × Nat) : Nat → Nat → Option Nat
  | 0, _ => none
  | n + 1, i =>
    let (x, y) := at' i
    if (concealedAt l k x y).isSome then nearestOn p l k at' n (i + 1) else some (p.at x y)

/-- The mean of the nearest decoded samples above and to the left, or mid-grey; `up` rounds a half (05 R136, log 61). -/
def neighbourFill (p : Plane) (l : List Concealed) (k x y grey up : Nat) : Nat :=
  let a := nearestOn p l k (fun i => (x, y - 1 - i)) y 0
  let b := nearestOn p l k (fun i => (x - 1 - i, y)) x 0
  match a, b with
  | some a, some b => (a + b + up) / 2
  | some a, none => a
  | none, some b => b
  | none, none => grey

/-- A plane with its concealed CTUs filled. -/
def State.concealPlane (s : State) (fmt : SurfFmt) (c0 : Word) (w h c up : Nat) (l : List Concealed) (p : Plane) : Plane :=
  let k := if c = 0 then 1 else 2
  let grey := if fmt.ten then 512 else 128
  p.zipIdx.map (fun r => r.1.zipIdx.map (fun e =>
    match concealedAt l k e.2 r.2 with
    | none => e.1
    | some z =>
      match z.slot with
      | some i =>
        let q := copyFrom z w h k e.2 r.2
        (s.sampleAt fmt (pictureSlot c0 i) w h c q.1 q.2).getD grey
      | none => neighbourFill p l k e.2 r.2 grey up))

/-! ### The picture (05 R118, R119, R128-R131, R140, R142) -/

/-- The picture left of a job's feed items after the discards; a packet with a failing tile counts as missing (05 R119, R137). -/
def State.keptOf (s : State) (j : Job) : Option KeptPicture :=
  let c0 := s.word j.ctx
  let good := j.items.zipIdx.filter (fun e => !j.badItems.contains e.2)
  keptPicture (fld c0 127 124) (fld c0 120 117) (fld c0 116 114)
    (codedUnits (fld c0 127 124) (good.map (fun e => rtpPayload (s.rd (fld e.1.2 47 0) (fld e.1.1 43 30)))))

/-- Is an H.265 CRA treated as a random access point (05 R142)? -/
def craIsRap (c2 : Word) : Bool := fld c2 95 64 == 0 || bit c2 63

/-- Is a picture a key picture (05 R139)? -/
def isKey (codec : Nat) (c2 : Word) (k : KeptPicture) (f : DecodeFacts) : Bool :=
  match codec with
  | 1 => k.kind == 5
  | 2 => decide (16 ≤ k.kind ∧ k.kind ≤ 20) || (k.kind == 21 && craIsRap c2)
  | _ => f.keyFrame

/-- The slot a picture takes: the frame shown, or the lowest neither held nor a reference (05 R128). -/
def slotFor (c2 : Word) (f : DecodeFacts) : Option Nat :=
  match f.showOnly with
  | some k => some (k % 32)
  | none => (List.range 32).find? (fun i => !bit c2 (96 + i) && !bit c2 (64 + i))

/-- Does a context hold a parameter set? -/
def State.hasParam (s : State) (ctx : Nat) (p : Nat × Nat) : Bool := bit (s.word (ctx + (paramPlace p).1)) (paramPlace p).2

/-- Parameter sets added to a context. -/
def State.addParams (s : State) (ctx : Nat) (l : List (Nat × Nat)) : State :=
  l.foldl (fun s p => s.setBit (ctx + (paramPlace p).1) (paramPlace p).2 1) s

/-- The result of a picture with data left (05 R118, R128, R131, R133, R140, R142; log 62). -/
def State.decodeResult (s : State) (j : Job) (k : KeptPicture) (f : DecodeFacts) : Nat :=
  let c0 := s.word j.ctx
  let codec := fld c0 127 124
  let c2 := s.word (j.ctx + 32)
  if f.needs.any (fun p => !s.hasParam j.ctx p && !f.brings.contains p) then 0x05
  else if supported codec f = false then 0x03
  else if f.width > 64 * fld c0 113 106 ∨ f.height > 64 * fld c0 105 98 ∨ f.width > 8192 ∨ f.height > 4320 then 0x04
  else if (f.width > 4096 ∨ f.height > 2304) ∧ (partitionsOf f j.part < 2 ∨ j.gang.isNone = true) then 0x04
  else if codec = 2 ∧ (k.kind = 8 ∨ k.kind = 9) ∧ bit (s.word (j.ctx + 64)) 49 = true then 0x06
  else if (slotFor c2 f).isNone then 0x02
  else 0x00

/-- The planes of a decoded picture at the output depth, mid-grey chroma for monochrome (05 R119, R130). -/
def decodedPlanes (f : DecodeFacts) (ten : Bool) : Plane × Plane × Plane :=
  let conv (p : List (List Nat)) : Plane := p.map (·.map (depthTo (f.depth == 10) ten))
  let grey : Plane := List.replicate (ceilDiv f.height 2) (List.replicate (ceilDiv f.width 2) (if ten then 512 else 128))
  (conv f.lumaRows, if f.chroma = 0 then grey else conv f.cbRows, if f.chroma = 0 then grey else conv f.crRows)

/-- Does a sheet block overlap a concealed CTU? -/
def blockConcealed (l : List Concealed) (bx bY : Nat) : Bool :=
  l.any (fun c => decide (c.x < (32 * bx + 32 : Nat) ∧ (32 * bx : Nat) < c.x + c.size ∧ c.y < (8 * bY + 8 : Nat) ∧ (8 * bY : Nat) < c.y + c.size))

/-- The flags of a sheet block: [0] concealed, [1] concealed_ref, beside the edge flag (05 R129). -/
def flagTile (l : List Concealed) (cref : Bool) (w i : Nat) (t : List Byte) : List Byte :=
  let cols := ceilDiv w 32
  let b := (bAt t 2) / 4 * 4 + 2 * bnat cref + bnat (blockConcealed l (i % cols) (i / cols))
  patch t 2 [BitVec.ofNat 8 b]

/-- A decoded picture written to its slot (05 R129, R130). -/
def State.writePicture (s : State) (j : Job) (f : DecodeFacts) (slot ts : Nat) (conceal : List Concealed) (cref : Bool) : State :=
  let c0 := s.word j.ctx
  let fmt := surfFmt (fld c0 123 122)
  let (up, s) := s.fresh
  let (y, cb, cr) := decodedPlanes f fmt.ten
  let fill (c : Nat) (p : Plane) : Plane := if conceal.isEmpty then p else s.concealPlane fmt c0 f.width f.height c (up % 2) conceal p
  let bytes := packSurface fmt f.width f.height ts (fill 0 y) (fill 1 cb) (fill 2 cr)
  let tiles := tilesOf (bytes.length / 512 + 1) bytes
  let tiles := if fmt.sheet then tiles.zipIdx.map (fun e => flagTile conceal cref f.width e.2 e.1) else tiles
  (s.putTiles (pictureSlot c0 slot) tiles).chargeBytes j.account (512 * tiles.length)

/-! ### The end of a decode (05 R120, R121, R124, R132-R134, R138, R139) -/

/-- What concealed_ref and recovery_left become (05 R138, R139): the flag, its event 2 sub (0: not cleared), recovery_left. `broken`: a
reference was absent or failed; `hidden`: CTUs were concealed. -/
def crefAfter (codec : Nat) (sweepJob key was broken hidden : Bool) (left : Nat) (f : DecodeFacts) : Bool × Nat × Nat :=
  let sei := if codec = 3 then none else f.recoverySei
  let clean := !hidden && !broken
  let point := match sei with
    | some 0 => true
    | some _ => false
    | none => left == 1
  let left := match sei with
    | some k => k
    | none => left - 1
  let left := if clean then left else 0
  let cause := if key then 1 else if point then 2 else if codec == 3 && sweepJob then 3 else 0
  if was && clean && cause != 0 then (false, cause, left) else (was || broken, 0, left)

/-- The feed of a job released up to what it has read (05 R124). -/
def State.releaseFeed (s : State) (ctx : Nat) : State :=
  let q := fld (s.word (ctx + 16)) 127 108
  match s.queues.get? q with
  | some a => if a.cls = 2 then s.setQueue q (a.releaseTo a.rd) else s
  | none => s

/-- What a decode has found of its picture: the picture kept, whether it is a key picture, the CTUs concealed, the failing reference tiles,
the order of a reference absent or failed, the context's flag after it, and its slot. -/
structure Decoded where
  kept : KeptPicture
  key : Bool
  conceal : Nat
  refFails : Nat
  missing : Option Int
  cref : Bool × Nat × Nat
  slot : Nat
  deriving DecidableEq, Repr

/-- The events of a decoded picture, but for input failures (05 R134). -/
def State.decodeEvents (s : State) (n : Nat) (j : Job) (f : DecodeFacts) (d : Decoded) (was : Bool) : State :=
  let q := fld (s.word (j.ctx + 16)) 87 68
  let ev (s : State) (code sub detail : Nat) : State := s.vccEvent n q j.ctx code sub detail
  let s := if d.refFails = 0 then s else ev s 5 0 d.refFails
  let s := f.damage.foldl (fun s x => ev s 3 x.kind (stopped f x).length) s
  let s := if !was && d.cref.1 then ev s 1 0 (unsigned 16 (d.missing.getD 0)) else s
  if d.cref.2.1 = 0 then s else ev s 2 d.cref.2.1 0

/-- The context after a picture that is not void (05 R120, R121, R128, R138, R139, R142): words 2 and 3, the parameter sets that came, the
order of the picture in its slot. -/
def State.writeContext (s : State) (j : Job) (f : DecodeFacts) (result : Nat) (d : Decoded) : State :=
  let a := j.ctx + 32
  let c2 := s.word a
  let c3 := s.word (a + 16)
  let newest := (j.items.getLast?.map s.itemSeq).getD 0
  let rap := bnat (d.kept.kind == 21 && craIsRap c2)
  let irap := fld (s.word j.ctx) 127 124 == 2 && decide (16 ≤ d.kept.kind ∧ d.kept.kind ≤ 21)
  let w2 := putFld (putFld (putFld c2 61 61 0) 62 62 1) 47 32 newest
  let w2 := if result ≠ 0 then w2 else
    let refs := fld c2 95 64 &&& (2 ^ 32 - 1 - f.dropRefs % 2 ^ 32)
    let w2 := putFld w2 95 64 (if f.isRef then refs ||| 2 ^ d.slot else refs)
    putFld (putFld (putFld w2 (96 + d.slot) (96 + d.slot) 1) 63 63 (bnat d.cref.1)) 31 0 d.cref.2.2
  let c3 := putFld c3 31 0 (fld c3 31 0 + j.late)
  let c3 := if result ≠ 0 then c3 else
    let c3 := putFld (putFld c3 127 96 (fld c3 127 96 + 1)) 63 32 (fld c3 63 32 + d.conceal)
    if d.cref.1 then putFld c3 95 64 (fld c3 95 64 + 1) else c3
  let s := (s.setWords a [w2, c3]).addParams j.ctx f.brings
  let s := if irap then s.setBit (j.ctx + 64) 49 rap else s
  if result = 0 ∧ f.showOnly.isNone then s.setWord (orderAddr j.ctx d.slot) (BitVec.ofNat 128 (unsigned 64 f.order)) else s

/-- The temporal layer that a status item names: of the picture's units, for H.264 that of its first packet word (05 R132; log 62). -/
def layerT (codec : Nat) (j : Job) (k : KeptPicture) : Nat := if codec = 1 then (j.items.head?.map (fun i => fld i.1 19 17)).getD 0 else k.t

/-- A decode job ends: feed, charges, counts and status item (05 R124, R132, R143, R144). -/
def State.endDecode (s : State) (n : Nat) (j : Job) (f : DecodeFacts) (result : Nat) (d : Decoded) : State :=
  let codec := fld (s.word j.ctx) 127 124
  let s := (s.releaseFeed j.ctx).bump F.VCC_CNT_pictures 1 n
  let (rest, s) := if result = 0 then (decodeCycles codec f.width f.height d.kept.bytes - j.spent, s) else s.fresh
  let s := s.charge j.account 1 rest
  let (free, s) := s.fresh
  let low := bnat (result == 0) * 2 ^ 55 + (if result = 0 then d.slot else free % 32) * 2 ^ 50 + bnat (result == 0 && d.cref.1) * 2 ^ 49 +
    bnat d.key * 2 ^ 48 + bnat (d.cref.2.1 != 0) * 2 ^ 47 + d.kept.s % 8 * 2 ^ 43 + layerT codec j d.kept % 8 * 2 ^ 40 +
    min (2 ^ 20 - 1) d.conceal * 2 ^ 20 + ctuCount f % 2 ^ 20
  let high := (j.items.head?.map s.itemTs).getD 0 * 2 ^ 64 + f.width % 2 ^ 14 * 2 ^ 50 + f.height % 2 ^ 14 * 2 ^ 36 +
    (j.spent + rest) / 64 % 2 ^ 24 * 2 ^ 12
  (s.decodeStatus n j result low high).freeCore n j

/-- A picture decoded: references read, damage concealed, the slot written (05 R128-R139). -/
def State.decodePicture (s : State) (n : Nat) (j : Job) (k : KeptPicture) (f : DecodeFacts) : State :=
  let c0 := s.word j.ctx
  let c2 := s.word (j.ctx + 32)
  let codec := fld c0 127 124
  let refs := s.refsOf j.ctx
  let reads := refReads c0 refs f
  let (bad, s) := s.readTiles n j.account .decoder (reads.map (·.2.2)).eraseDups
  let failed := reads.filter (fun r => bad.contains (r.2.2 / 512 * 512))
  let hidden := (f.damage.flatMap (stopped f) ++ failed.map (·.1)).eraseDups
  let (conceal, more, s) := s.concealAll n j.account c0 refs f hidden (failed.map (fun r => (r.1, r.2.1)))
  let fails := bad.length + more.length
  let absent := f.names.find? (fun o => !refs.any (fun r => r.2 == o))
  let inFailed := (failed.head?.bind (fun r => refs.find? (fun x => x.1 == r.2.1))).map (·.2)
  let key := isKey codec c2 k f
  let cref := crefAfter codec (bit j.w0 8) key (bit c2 63) (absent.isSome || fails != 0) (!hidden.isEmpty) (fld c2 31 0) f
  let slot := (slotFor c2 f).getD 0
  let d : Decoded := ⟨k, key, hidden.length, fails, match absent with | some o => some o | none => inFailed, cref, slot⟩
  let s := s.count F.VCC_CNT_crc_fail fails n
  let s := if f.showOnly.isNone then s.writePicture j f slot ((j.items.head?.map s.itemTs).getD 0) conceal cref.1 else s
  ((s.writeContext j f 0 d).decodeEvents n j f d (bit c2 63)).endDecode n j f 0 d

/-- DECODE_COMPLETE: the picture of the core's op 1 job ends with the codec's findings. -/
def State.decodeComplete (s : State) (n : Nat) (f : DecodeFacts) : State :=
  match (s.vccOf n).cur with
  | none => s
  | some j =>
    if isEncode j.w0 ∨ j.paused then s else
      let c2 := s.word (j.ctx + 32)
      let codec := fld (s.word j.ctx) 127 124
      let none_ : KeptPicture := ⟨0, 0, 0, 0⟩
      let d (k : KeptPicture) : Decoded := ⟨k, isKey codec c2 k f, 0, 0, none, (bit c2 63, 0, fld c2 31 0), 0⟩
      match s.keptOf j with
      | none =>
        let (r, s) := s.fresh
        (((((s.writeContext j { f with brings := [] } 1 (d none_)).releaseFeed j.ctx).bump F.VCC_CNT_pictures 1 n).emptyStatus n j (1 + r % 6))).freeCore n j
      | some k =>
        let result := s.decodeResult j k f
        if result = 0 then (if findingsFit codec j (s.refsOf j.ctx) f then s.decodePicture n j k f else s)
        else if result = 5 then
          let s := ((s.writeContext j f 5 (d k)).releaseFeed j.ctx).bump F.VCC_CNT_pictures 1 n
          ((s.vccEvent n (fld (s.word (j.ctx + 16)) 87 68) j.ctx 6 0 0).emptyStatus n j 5).freeCore n j
        else (s.writeContext j f result (d k)).endDecode n j f result (d k)

end Sys2Proof.Machine
end

