-- ==== Sys2Proof/Machine/EncodeOps.lean ====
section
/-! DEFINITION. Encoded pictures (06 R149-R174): packets out, layer pictures with their references, refresh and rate control, and what an
encode leaves in its context and reports. -/
namespace Sys2Proof.Machine

/-! ### Packets out (06 R165, R170, R171) -/

/-- The extension elements of a packet: the transport-wide one, then the descriptor. -/
def packetElems (c0 : Word) (dd : List Byte) : List (Nat × List Byte) :=
  (if fld c0 55 48 = 0 then [] else [(fld c0 55 48, [0, 0])]) ++ (if fld c0 127 124 = 3 then [(fld c0 63 56, dd)] else [])

/-- The extension block of RFC 8285: one-byte form where every element fits it, else two-byte (06 R170). -/
def extensionOf (l : List (Nat × List Byte)) : List Byte :=
  if l.isEmpty then [] else
    let one := l.all (fun e => decide (1 ≤ e.1 ∧ e.1 ≤ 14 ∧ 1 ≤ e.2.length ∧ e.2.length ≤ 16))
    let body := l.flatMap (fun e =>
      if one then beBytes 1 (16 * e.1 + (e.2.length - 1)) ++ e.2 else beBytes 1 e.1 ++ beBytes 1 e.2.length ++ e.2)
    let words := ceilDiv body.length 4
    beBytes 2 (if one then 0xBEDE else 0x1000) ++ beBytes 2 words ++ body ++ List.replicate (4 * words - body.length) 0

/-- The RTP packet that an encoder builds (06 R170). -/
def State.encodedPacket (s : State) (j : Job) (p : EncPacket) : List Byte :=
  let w := s.word (j.ctx + 16 * (5 + p.enc))
  let ext := extensionOf (packetElems (s.word j.ctx) p.dd)
  beBytes 1 (if ext.isEmpty then 0x80 else 0x90) ++ beBytes 1 (128 * bnat p.last + fld w 87 81) ++ beBytes 2 (fld w 31 16) ++
    beBytes 4 (fld j.w1 79 48) ++ beBytes 4 (fld w 63 32) ++ ext ++ p.payload

/-- The encodings of a job: a layered stream is one (06 R151). -/
def encodings (c0 : Word) : Nat := fld c0 116 115 + 1

/-- The type of the NAL unit that an H.264 or H.265 packet carries, whole or in a fragment (06 R170). -/
def packetNal (codec : Nat) (b : List Byte) : Nat :=
  let ty := (nalUnit codec b 0).kind
  if codec = 1 then (if ty = 28 then bAt b 1 % 32 else ty) else (if ty = 49 then bAt b 2 % 64 else ty)

/-- Does a packet carry a slice of an H.264 or H.265 picture? -/
def packetSlice (codec : Nat) (b : List Byte) : Bool := unitPicture codec ⟨packetNal codec b, none, none, 0⟩

/-- Does each template above T0 switch up in the decode targets of its spatial layer from its temporal layer on (06 R165)? A target's
layers are the highest that it holds. -/
def switchesUp (dd : List Byte) : Bool :=
  let dts := bitsAt dd 35 5 + 1
  let (layers, i) := ddLayers dd 64 40 0 0
  let dti (m k : Nat) : Nat := bitsAt dd (i + 2 * (dts * m + k)) 2
  let top (g : Nat × Nat → Nat) (k : Nat) : Nat := layers.zipIdx.foldl (fun n e => if dti e.2 k = 0 then n else max n (g e.1)) 0
  layers.zipIdx.all (fun e => e.1.2 == 0 ||
    (List.range dts).all (fun k => !(top (·.1) k == e.1.1 && decide (e.1.2 ≤ top (·.2) k)) || dti e.2 k == 2))

/-- Is a packet one that the core may build for its job (06 R150, R165, R170)? Others are no event (log 21). -/
def packetFits (c0 : Word) (j : Job) (p : EncPacket) : Bool :=
  let codec := fld c0 127 124
  let t := cycleT (fld c0 120 117) j.tpos
  let b := p.payload
  let ty := packetNal codec b
  p.enc == j.enc && decide (p.enc < encodings c0) &&
  match codec with
  | 1 =>
    let outer := bAt b 0 % 32
    decide (1 ≤ outer ∧ outer ≤ 23 ∨ outer = 28) &&
      (!packetSlice 1 b || ((ty == 5) == j.key && (j.begun || fld c0 120 117 % 3 == 0))) && (ty != 14 || bAt b 3 / 32 == t)
  | 2 =>
    let outer := bAt b 0 / 2 % 64
    decide (outer < 48 ∨ outer = 49) &&
      (!packetSlice 2 b || (netAt b 0 2 % 8 == t + 1 && (if j.key then ty == 20 else decide (ty < 16)) &&
        (!(bit c0 66 && decide (t > 0)) || ty == 2 || ty == 3)))
  | _ =>
    let marks := j.key || (j.sweepStart && (bit j.w3 26 || bit c0 77))
    let has := (ddStructure p.dd).isSome
    !b.isEmpty && decide (p.dd.length ≥ 3) && has == (marks && bitsAt p.dd 0 1 == 1) && (!has || switchesUp p.dd)

/-- A packet sent: the job goes on to the next encoding after the last one of this (06 R155). -/
def afterPacket (c0 : Word) (j : Job) (p : EncPacket) : Job :=
  let codec := fld c0 127 124
  { j with
    packets := j.packets + 1, waiting := none, enc := if p.last then j.enc + 1 else j.enc,
    begun := !p.last && (j.begun || (codec == 1 && packetNal 1 p.payload == 14)) }

/-- ENCODE_PACKET_OUT: a packet of the running job fills a buffer of buf_q, or waits for one (06 R171). -/
def State.packetOut (s : State) (n : Nat) (p : EncPacket) : State :=
  match (s.vccOf n).cur with
  | none => s
  | some j =>
    let c0 := s.word j.ctx
    let rtp := s.encodedPacket j p
    let w := s.word (j.ctx + 16 * (5 + p.enc))
    if isEncode j.w0 = false ∨ j.paused ∨ packetFits c0 j p = false ∨ (j.waiting.isSome ∧ j.waiting ≠ some p) ∨
        rtp.length > clampNat (fld w 80 70) 256 1536 then s else
      let bufQ := fld (s.word (j.ctx + 16)) 87 68
      match s.popItem bufQ with
      | none => s.setVcc n { s.vccOf n with cur := some { j with bufWait := true, waiting := some p } }
      | some (i, s) =>
        let a := fld ((i[0]?).getD 0) 47 0
        let s := (s.writeBuf a rtp).chargeBytes j.account rtp.length
        let (pw, s) := s.identify (fld w 127 108) 0 s.mtime rtp.length rtp
        let s := s.putWord (j.ctx + 16 * (5 + p.enc)) 31 16 (fld w 31 16 + 1)
        let s := s.setVcc n { s.vccOf n with cur := some (afterPacket c0 j p) }
        s.pushItem (.vcc n) (fld w 107 88) [pw, BitVec.ofNat 128 (bufQ * 2 ^ 108 + a)]

/-! ### Layer pictures (06 R150, R162, R163, R166, R167) -/

/-- The latest pictures of a layer in the reference area: of T0, and of T1 since (06 R150; log 60). -/
def latestOf (priv : Word) (k : Nat) : Option Nat × Option Nat :=
  let n := fld priv (23 + 8 * k) (16 + 8 * k)
  (if n.testBit 2 then some (n % 4) else none, if n.testBit 6 then some (n / 16 % 4) else none)

/-- The place a reconstructed picture takes: the first of four that holds neither of the latest ones. -/
def placeFor (l : Option Nat × Option Nat) : Nat := ((List.range 4).find? (fun i => l.1 != some i && l.2 != some i)).getD 0

/-- The latest pictures of a layer after one of temporal layer t at place `i`. -/
def latestAfter (l : Option Nat × Option Nat) (t i : Nat) : Option Nat × Option Nat :=
  match t with
  | 0 => (some i, none)
  | 1 => (l.1, some i)
  | _ => l

/-- Such a pair as the private bytes hold it. -/
def latestBits (l : Option Nat × Option Nat) : Nat :=
  (match l.1 with | some i => 4 + i | none => 0) + 16 * (match l.2 with | some i => 4 + i | none => 0)

/-- What the rules give of a layer picture before it is coded. Columns of CTUs count from 0; `refreshed` and `refRefreshed` are how many
columns the refreshed region of the picture and of its reference have, none outside a sweep. -/
structure LayerPlan where
  k : Nat
  w : Nat
  h : Nat
  edge : Nat
  cols : Nat
  rows : Nat
  allIntra : Bool
  lower : Option Nat               -- the lower layer's width, where it is a reference
  lo : Nat                         -- the refresh column
  hi : Nat
  strip : Bool
  refreshed : Option Nat
  refRefreshed : Option Nat
  lowerRefreshed : Option Nat      -- of the lower layer, in its luma samples; none: all of it
  ref : Option Nat                 -- place of the reference
  place : Nat                      -- of the reconstructed picture
  budget : Nat
  cap : Nat
  deriving DecidableEq, Repr

/-- The columns [0, n) of a refreshed region as luma samples; none: the whole picture. -/
def regionEdge (cols edge n : Nat) : Option Nat := if n ≥ cols then none else some (n * edge)

/-- The plan of layer k of a job. -/
def layerPlan (c0 c2 : Word) (j : Job) (priv : Word) (k : Nat) : LayerPlan :=
  let n := layerCount c0
  let mode := fld c0 120 117
  let t := cycleT mode j.tpos
  let e := ctuEdge (fld c0 127 124)
  let w := layerDim (fld c0 113 100) n k
  let h := layerDim (fld c0 99 86) n k
  let cols := ceilDiv w e
  let lowW := layerDim (fld c0 113 100) n (k - 1)
  let lowCols := ceilDiv lowW e
  let len := fld j.w3 47 40
  let pos := fld j.w3 55 48
  let sweep := !j.key && len != 0
  let column := sweep && t == 0
  let lo := if column then (pos - 1) * cols / len else 0
  let hi := if column then pos * cols / len else 0
  let layered := decide (mode > 2 ∧ k > 0)
  let latest := latestOf priv k
  let tgt := pictureTarget c0 c2 j.key k t
  ⟨k, w, h, e, cols, ceilDiv h e, j.key && !layered, if layered then some lowW else none, lo, hi, column && pos > 1,
   if sweep then some (pos * cols / len) else none, if sweep then some (if t = 0 then lo else pos * cols / len) else none,
   if sweep then regionEdge lowCols e (pos * lowCols / len) else none,
   if j.key then none else if t = 2 then (latest.2.orElse (fun _ => latest.1)) else latest.1, placeFor latest,
   workingBudget c0 c2 j.w3 j.key k t, max (tgt * max 4 (fld c2 51 48) / 4) (floorBound c0 k (if j.key then 2 ^ 20 else hi - lo))⟩

/-- Must a CTU of column `c` be intra (06 R162, R165, R168)? -/
def LayerPlan.intraColumn (p : LayerPlan) (c : Nat) : Bool := p.allIntra || (decide (p.lo ≤ c) && decide (c < p.hi))

/-- The floor bound of the CTUs of column `c` (06 R167). -/
def LayerPlan.floorBits (p : LayerPlan) (key : Bool) (c : Nat) : Nat :=
  if key || p.intraColumn c then p.edge * p.edge / 8 else 48

/-- Does a plan's region limit a read: the columns up to `right` read, `extra` too, against the edge of the region read (06 R163)? -/
def readsInside (right extra : Int) (edge : Option Nat) : Bool :=
  match edge with
  | none => true
  | some e => decide (right + extra < (e : Int) - 8)

/-- Do the samples that a block predicts in the refreshed region stay within the reference's (06 R163)? `taps`: the interpolation's reach
to the right. -/
def LayerPlan.motionInside (p : LayerPlan) (taps : Nat) (m : Motion) : Bool :=
  match p.refreshed with
  | none => true
  | some n =>
    let right := match regionEdge p.cols p.edge n with
      | none => m.x + m.w
      | some e => min (m.x + m.w) (e - 8)
    let extra := m.dx / 4 + (if m.dx % 4 = 0 then 0 else taps)
    decide (right ≤ m.x) ||
      (if m.lower then readsInside (right - 1 : Int) extra (p.lowerRefreshed.map (fun e => e * p.w / max 1 (p.lower.getD 1)))
       else readsInside (right - 1 : Int) extra ((p.refRefreshed.map (regionEdge p.cols p.edge)).getD none))

/-- The interpolation taps to the left and right of a sample: six taps in H.264, eight else (ITU-T H.264, H.265; AV1). -/
def tapsOf (codec : Nat) : Nat × Nat := if codec = 1 then (2, 3) else (3, 4)

/-- Does a predicted block keep the rules: its reference, the reach of the search, the strip left of the refresh column, the refreshed
region (06 R150, R161-R163)? -/
def LayerPlan.motionFits (p : LayerPlan) (codec x0 y0 : Nat) (m : Motion) : Bool :=
  (if m.lower then p.lower.isSome else p.ref.isSome) &&
  decide (x0 ≤ m.x ∧ m.x + m.w ≤ x0 + p.edge ∧ y0 ≤ m.y ∧ m.y + m.h ≤ y0 + p.edge ∧ 0 < m.w ∧ 0 < m.h) &&
  decide (m.dx.natAbs ≤ 4096 ∧ m.dy.natAbs ≤ 2048 ∧ m.coarseX.natAbs ≤ 256 ∧ m.coarseY.natAbs ≤ 128) &&
  !(p.strip && decide (m.x < p.lo * p.edge ∧ p.lo * p.edge < m.x + m.w + 8)) && p.motionInside (tapsOf codec).2 m

/-- The sheet blocks of the reference that a predicted block reads, by place. -/
def LayerPlan.blockTiles (p : LayerPlan) (codec : Nat) (m : Motion) : List Nat :=
  let (l, r) := tapsOf codec
  let span (a n : Nat) (d : Int) (full unit : Nat) : List Nat :=
    let near (v : Int) : Nat := (clampInt v 0 (full - 1 : Nat)).toNat
    let lo := near (a + d / 4 - (if d % 4 = 0 then 0 else (l : Int))) / unit
    let hi := near (a + n - 1 + d / 4 + (if d % 4 = 0 then 0 else (r : Int))) / unit
    (List.range (hi + 1 - lo)).map (lo + ·)
  if m.lower then [] else
    (span m.y m.h m.dy p.h 8).flatMap (fun y => (span m.x m.w m.dx p.w 32).map (fun x => ceilDiv p.w 32 * y + x))

/-- The greatest quantiser of a codec (ITU-T H.264, H.265; AV1). -/
def maxQp (codec : Nat) : Nat := if codec = 3 then 255 else 51

/-- Does a coded CTU keep the rules (06 R160-R163, R166-R168)? `floor`: coded in floor mode; `failed`: it read a failing tile. -/
def LayerPlan.ctuFits (p : LayerPlan) (c0 c2 : Word) (key : Bool) (i : Nat) (floor failed : Bool) (c : CtuCode) : Bool :=
  let codec := fld c0 127 124
  let col := i % max 1 p.cols
  let must := p.intraColumn col
  (!(must || (floor && key)) || c.intra) && (!(floor && !must && !key) || !c.intra) && (!failed || floor || c.intra) && (!c.intra || c.motion.isEmpty || failed) &&
    (if floor then c.qp == maxQp codec else decide (fld c2 39 32 < fld c2 47 40) || decide (fld c2 47 40 ≤ c.qp ∧ c.qp ≤ fld c2 39 32)) &&
    decide (c.floor ≤ p.floorBits key col) &&
    (match p.refreshed.bind (regionEdge p.cols p.edge) with
     | some e => decide (e ≤ col * p.edge ∨ c.reach ≤ e)
     | none => true) &&
    c.motion.all (p.motionFits codec (col * p.edge) (i / max 1 p.cols * p.edge))

/-! ### Floor mode (06 R168) -/

/-- The CTUs of a layer picture coded in order, each with its floor bound: the bits each takes, and whether in floor mode. -/
def floorRun (budget cap cols : Nat) : List (CtuCode × Nat) → Nat → Nat → Bool → List (Nat × Bool)
  | [], _, _, _ => []
  | (c, _) :: rest, i, used, fl =>
    let fl := fl || (decide (i % cols = 0 ∧ 0 < i) && decide (budget ≤ used))
    let fl := fl || decide (used + c.normal + total (rest.map (·.2)) > cap)
    let n := if fl then c.floor else c.normal
    (n, fl) :: floorRun budget cap cols rest (i + 1) (used + n) fl

/-- How a layer picture came out: the bits and mode of each CTU. -/
def LayerPlan.run (p : LayerPlan) (key : Bool) (l : LayerCode) : List (Nat × Bool) :=
  floorRun p.budget p.cap (max 1 p.cols) (l.ctus.zipIdx.map (fun e => (e.1, p.floorBits key (e.2 % max 1 p.cols)))) 0 l.header false

/-- The bits used, headers included. -/
def usedBits (l : LayerCode) (r : List (Nat × Bool)) : Nat := l.header + total (r.map (·.1))

/-- The rows with a CTU in floor mode. -/
def floorRowsOf (cols : Nat) (r : List (Nat × Bool)) : Nat :=
  match r.findIdx? (·.2) with
  | some i => ceilDiv r.length (max 1 cols) - i / max 1 cols
  | none => 0

/-- The bits that each row took. -/
def rowBits (cols rows : Nat) (r : List (Nat × Bool)) : List Nat :=
  (List.range rows).map (fun i => total (((r.drop (i * cols)).take cols).map (·.1)))

/-! ### Findings and rules (06 R149, R162, R165, R176) -/

/-- The level that the core writes, where one covers the picture (06 R149; log 92). -/
def levelFits (c0 c2 : Word) (f : EncodeFacts) : Bool :=
  match levelFor (fld c0 127 124) (fld c0 113 100) (fld c0 99 86) (fld c2 67 52) with
  | some l => f.level == l
  | none => true

/-- The profile that the core writes: in H.264 as the context says, else by depth (06 R149, R151). -/
def profileOf (c0 : Word) : Nat :=
  match fld c0 127 124 with
  | 1 => min 2 (fld c0 65 64)
  | 2 => bnat (bit c0 114)
  | _ => 0

/-- The recovery point SEI of the first picture of a sweep (06 R165). -/
def seiOf (c0 : Word) (j : Job) : Option Nat :=
  if decide (fld c0 127 124 ≤ 2) && j.sweepStart then some (cycleLen (fld c0 120 117) * (fld j.w3 47 40 - 1)) else none

/-- Does the partition keep the rules: none without a gang; automatic: codec tiles, for H.264 slices, one per core in equal column spans
(06 R176)? -/
def partFits (c0 : Word) (j : Job) (crew cols : Nat) (f : EncodeFacts) : Bool :=
  if j.gang.isNone then f.kind == 0
  else if j.part = 0 then
    f.kind == (if fld c0 127 124 = 1 then 2 else 1) && f.spans == (List.range crew).map (fun i => i * cols / crew)
  else f.kind == j.part

/-- A layer picture with its plan. -/
structure LayerRun where
  plan : LayerPlan
  code : LayerCode
  bits : List (Nat × Bool)
  deriving DecidableEq, Repr

/-- The layer pictures of a job. -/
def layerRuns (c0 c2 : Word) (j : Job) (priv : Word) (f : EncodeFacts) : List LayerRun :=
  f.layers.zipIdx.map (fun e => let p := layerPlan c0 c2 j priv e.2; ⟨p, e.1, p.run j.key e.1⟩)

/-- Does a layer picture keep the rules? `failed` gives the failing blocks of its reference. -/
def LayerRun.fits (r : LayerRun) (c0 c2 : Word) (key : Bool) (failed : List Nat) : Bool :=
  let p := r.plan
  let cw := r.plan.w / 2
  let ch := r.plan.h / 2
  decide (r.code.header ≤ 2048) && r.code.ctus.length == p.cols * p.rows &&
    planeFits r.code.lumaRows p.w p.h && planeFits r.code.cbRows cw ch && planeFits r.code.crRows cw ch &&
    (r.code.ctus.zip r.bits).zipIdx.all (fun e =>
      p.ctuFits c0 c2 key e.2 e.1.2.2 (e.1.1.motion.any (fun m => (p.blockTiles (fld c0 127 124) m).any failed.contains)) e.1.1)

/-- Do the findings of an encode keep the rules? Findings that do not are no event (log 21). -/
def encodeFits (c0 c2 : Word) (j : Job) (crew : Nat) (runs : List LayerRun) (failed : List (List Nat)) (f : EncodeFacts) : Bool :=
  levelFits c0 c2 f && f.profile == profileOf c0 && f.sei == seiOf c0 j && f.layers.length == layerCount c0 &&
    partFits c0 j crew ((runs.head?.map (·.plan.cols)).getD 0) f &&
    (runs.zip failed).all (fun e => e.1.fits c0 c2 j.key e.2)

/-! ### Reconstructed pictures (06 R152, R160) -/

/-- The address of a picture of a plan's layer in the reference area. -/
def State.refAddr (s : State) (j : Job) (p : LayerPlan) (i : Nat) : Nat := refPlace (s.word j.ctx) (s.word (j.ctx + 16)) p.k i

/-- The format of reconstructed pictures: sheets of the output depth. -/
def refFmt (c0 : Word) : SurfFmt := surfFmt (bnat (bit c0 114))

/-- Was a sample of a layer made of a failing tile of the input? -/
def fromBadTile (c0 : Word) (bad : List Nat) (k c x y : Nat) : Bool :=
  let d := 2 ^ (layerCount c0 - 1 - k)
  let f := surfFmt (fld c0 123 122)
  (List.range d).any (fun i => (List.range d).any (fun m =>
    bad.contains ((samplePlace f (fld c0 113 100) (fld c0 99 86) c (x * d + i) (y * d + m)).1 / 512)))

/-- A reconstructed plane: where the input failed, the co-located area of the latest reference picture, or mid-grey in a key picture
(06 R160). -/
def State.mended (s : State) (j : Job) (p : LayerPlan) (c : Nat) (pl : Plane) : Plane :=
  let c0 := s.word j.ctx
  let grey := if bit c0 114 then 512 else 128
  if j.inBad.isEmpty then pl else
    pl.zipIdx.map (fun r => r.1.zipIdx.map (fun e =>
      if fromBadTile c0 j.inBad p.k c e.2 r.2 = false then e.1
      else match p.ref with
        | some i => (s.sampleAt (refFmt c0) (s.refAddr j p i) p.w p.h c e.2 r.2).getD grey
        | none => grey))

/-- The reconstructed picture of a layer written to its place (06 R152). -/
def State.writeRecon (s : State) (j : Job) (r : LayerRun) : State :=
  let p := r.plan
  let bytes := packSurface (refFmt (s.word j.ctx)) p.w p.h (fld j.w1 79 48) (s.mended j p 0 r.code.lumaRows) (s.mended j p 1 r.code.cbRows)
    (s.mended j p 2 r.code.crRows)
  let tiles := tilesOf (bytes.length / 512 + 1) bytes
  (s.putTiles (s.refAddr j p p.place) tiles).chargeBytes j.account (512 * tiles.length)

/-- The blocks of its reference that a layer picture reads: those that fail, reported; each is charged once (06 R158, R160). -/
def State.readRefs (s : State) (n : Nat) (j : Job) (r : LayerRun) : List Nat × State :=
  let p := r.plan
  match p.ref with
  | none => ([], s)
  | some i =>
    let base := s.refAddr j p i
    let blocks := (r.code.ctus.flatMap (fun c => c.motion.flatMap (p.blockTiles (fld (s.word j.ctx) 127 124)))).eraseDups
    blocks.foldl (fun (l : List Nat × State) b =>
      let (s, bad) := l.2.verifyBy (.vcc n) .encoder 1 (base + 512 * b)
      (if bad.isEmpty then l.1 else l.1 ++ [b], s.chargeBytes j.account 512)) ([], s)

/-- The references of every layer read. -/
def State.readAllRefs (s : State) (n : Nat) (j : Job) (runs : List LayerRun) : List (List Nat) × State :=
  runs.foldl (fun (l : List (List Nat) × State) r =>
    let (bad, s) := l.2.readRefs n j r
    (l.1 ++ [bad], s)) ([], s)

/-! ### The end of an encode (06 R153, R166-R174, R177) -/

/-- The debts after a job (06 R169). -/
def debtsAfter (c0 c2 w3 : Word) (t : Nat) (used : List Nat) : Word :=
  used.zipIdx.foldl (fun w e =>
    if e.2 > 2 then w else
      let hi := 127 - 24 * e.2
      let tgt := targetBits c0 c2 e.2 t
      let d := (debtOf w e.2 : Int) + e.1 - tgt
      putFld w hi (hi - 23) (min (2 ^ 24 - 1) (clampInt d 0 tgt).toNat)) w3

/-- Did the floor bound decide the cap of a layer picture (06 R167)? -/
def capRaised (c0 c2 : Word) (key : Bool) (t k cols : Nat) : Bool :=
  decide (floorBound c0 k (if key then 2 ^ 20 else cols) > pictureTarget c0 c2 key k t * max 4 (fld c2 51 48) / 4)

/-- Word 4 of a context after a job (06 R151). -/
def encodeCounts (c4 : Word) (j : Job) (floor : Bool) : Word :=
  let up (w : Word) (hi lo k : Nat) : Word := putFld w hi lo (satAdd (hi + 1 - lo) (fld w hi lo) k)
  let c4 := putFld (putFld c4 127 96 (fld c4 127 96 + 1)) 95 64 (fld c4 95 64 + bnat floor)
  up (up (up (up c4 63 48 (bnat j.key)) 47 32 (bnat j.sweepStart)) 31 16 j.reads) 15 0 j.coalesced

/-- The codec-core cycles of a layer picture of `luma` samples and `bits` coded bits (06 R177). -/
def encodeCycles (effort luma bits : Nat) : Nat :=
  let samples := match effort with
    | 1 => ceilDiv luma 2
    | 2 => ceilDiv (8 * luma) 5
    | _ => ceilDiv (4 * luma) 5
  max samples (ceilDiv bits 8) + 4000

/-- The private bytes of a context after a job: the bits of each row, and the first word (06 R150, R160, R166; log 60). -/
def State.writePrivate (s : State) (j : Job) (runs : List LayerRun) (failed : Bool) : State :=
  let t := cycleT (fld (s.word j.ctx) 120 117) j.tpos
  let priv := s.word (privWord j.ctx)
  let s := if j.key then s else runs.foldl (fun s r =>
    s.wr (rowPlace j.ctx r.plan.k t).1 ((rowBits r.plan.cols r.plan.rows r.bits).flatMap (leBytes 4))) s
  let kept := if j.key then 0 else runs.foldl (fun m r => m ||| 2 ^ (3 * r.plan.k + t)) (fld priv 10 2)
  let w := putFld (putFld (putFld priv 0 0 1) 1 1 (bnat failed)) 10 2 kept
  s.setWord (privWord j.ctx) (runs.foldl (fun w r =>
    putFld w (23 + 8 * r.plan.k) (16 + 8 * r.plan.k) (latestBits (latestAfter (latestOf priv r.plan.k) t r.plan.place))) w)

/-- The events of an encoded temporal unit, but for input failures (06 R174). -/
def State.encodeEvents (s : State) (n : Nat) (j : Job) (floorLayer floorRows refFails : Nat) : State :=
  let q := fld (s.word (j.ctx + 16)) 67 48
  let ev (s : State) (on : Bool) (code sub detail : Nat) : State := if on then s.vccEvent n q j.ctx code sub detail else s
  let s := ev s j.key 16 j.keyCause 0
  let s := ev s j.sweepStart 17 (bnat (bit j.w3 26)) (fld j.w3 47 40)
  let s := ev s (floorRows != 0) 18 floorLayer floorRows
  ev s (refFails != 0) 20 0 refFails

/-- An encoded temporal unit ends: the reference area, the context, counts, events and the status item. -/
def State.endEncode (s : State) (n : Nat) (j : Job) (runs : List LayerRun) (refFails : Nat) : State :=
  let c0 := s.word j.ctx
  let c2 := s.word (j.ctx + 32)
  let mode := fld c0 120 117
  let layers := layerCount c0
  let t := cycleT mode j.tpos
  let raised := runs.any (fun r => capRaised c0 c2 j.key t r.plan.k (r.plan.hi - r.plan.lo))
  let used := runs.map (fun r => usedBits r.code r.bits)
  let floors := runs.map (fun r => floorRowsOf r.plan.cols r.bits)
  let floorRows := total floors
  let cycles := total ((runs.zip used).map (fun e => encodeCycles (fld c0 68 67) (e.1.plan.w * e.1.plan.h) e.2))
  let s := (runs.foldl (fun s r => s.writeRecon j r) s).charge j.account 1 (cycles - j.spent)
  let w3 := debtsAfter c0 c2 (putFld (putFld j.w3 28 27 ((j.tpos + 1) % cycleLen mode)) 37 37 0) t used
  let s := s.setWords (j.ctx + 48) [w3, encodeCounts (s.word (j.ctx + 64)) j (floorRows != 0)]
  let s := s.writePrivate j runs (refFails != 0)
  let s := (s.bump F.VCC_CNT_pictures 1 n).count F.VCC_CNT_crc_fail refFails n
  let s := s.encodeEvents n j ((floors.findIdx? (· != 0)).getD 0) floorRows refFails
  let w0 := bnat j.key * 2 ^ 55 + bnat j.sweepStart * 2 ^ 54 + bnat j.sweepDone * 2 ^ 53 + bnat (bit j.w3 26) * 2 ^ 52 +
    bnat (floorRows != 0) * 2 ^ 51 + bnat (s.jobLate j) * 2 ^ 50 + bnat raised * 2 ^ 49 + bnat j.bufWait * 2 ^ 48 + t * 2 ^ 45 +
    (layers - 1) * 2 ^ 43 + min 2047 floorRows * 2 ^ 32
  let w1 := total used % 2 ^ 32 * 2 ^ 96 + j.packets % 65536 * 2 ^ 80 + min 255 (j.inBad.length + refFails) * 2 ^ 72 +
    cycles / 64 % 2 ^ 24 * 2 ^ 48 + fld j.w1 31 0
  (s.pushItem (.vcc n) (fld (s.word (j.ctx + 16)) 107 88) [s.stampWord (BitVec.ofNat 128 w0), BitVec.ofNat 128 w1]).freeCore n j

/-- ENCODE_COMPLETE: the temporal unit of the core's op 0x8 job ends, once all its packets are out. -/
def State.encodeComplete (s : State) (n : Nat) (f : EncodeFacts) : State :=
  match (s.vccOf n).cur with
  | none => s
  | some j =>
    let c0 := s.word j.ctx
    let c2 := s.word (j.ctx + 32)
    if isEncode j.w0 = false ∨ j.paused ∨ j.waiting.isSome ∨ j.enc < encodings c0 then s else
      let runs := layerRuns c0 c2 j (s.word (privWord j.ctx)) f
      let (failed, s1) := s.readAllRefs n j runs
      if encodeFits c0 c2 j (s.crew n) runs failed f then s1.endEncode n j runs (total (failed.map List.length)) else s

end Sys2Proof.Machine
end

