-- ==== Sys2Proof/Machine/Codec.lean ====
section
/-! DEFINITION. The meanings of the codec cores' commands (05, 06). -/
namespace Sys2Proof.Machine

/-- JOB_TAKE (05 R126, 06 R156). A take whose outcome the spec leaves not defined stops. -/
def execJobTake (core : Nat) (s : State) : Host.Outcome State Fault Refusal :=
  match s.takeUndefined core with
  | some r => .fault (.notDefined r)
  | none => .next (s.jobTake core)

/-- START_BY_EXPIRY (05 R126). A take whose outcome the spec leaves not defined stops. -/
def execStartByExpiry (core queue : Nat) (s : State) : Host.Outcome State Fault Refusal :=
  match (s.expiryChoice core queue).bind (s.jobUndefined core) with
  | some r => .fault (.notDefined r)
  | none => .next (s.startByExpiry core queue)

/-- DECODE_COMPLETE (05 R132). -/
def execDecodeComplete (core : Nat) (f : DecodeFacts) (s : State) : Host.Outcome State Fault Refusal := .next (s.decodeComplete core f)

/-- CODEC_BUDGET_PAUSE (05 R144, 06 R158). -/
def execCodecBudgetPause (core : Nat) (s : State) : Host.Outcome State Fault Refusal := .next (s.budgetPause core)

/-- ENCODE_PREEMPT (06 R157). -/
def execEncodePreempt (core : Nat) (s : State) : Host.Outcome State Fault Refusal := .next (s.encodePreempt core)

/-- ENCODE_PACKET_OUT (06 R170, R171). -/
def execEncodePacketOut (core : Nat) (p : EncPacket) (s : State) : Host.Outcome State Fault Refusal := .next (s.packetOut core p)

/-- ENCODE_COMPLETE (06 R172). -/
def execEncodeComplete (core : Nat) (f : EncodeFacts) (s : State) : Host.Outcome State Fault Refusal := .next (s.encodeComplete core f)

end Sys2Proof.Machine
end

