-- ==== Sys2Proof/Machine/PipeOps.lean ====
section
/-! DEFINITION. The scaler pipes of a composer (07 R189, R190, R192, R193, R195): the samples of a source, decimation,
polyphase filtering with the coefficient words in effect, and the conversion into the canvas's coded values. -/
namespace Sys2Proof.Machine

/-- Register k of a snapshot. -/
def nth (l : List Reg64) (k : Nat) : Reg64 := (l[k]?).getD 0

/-- An inset's source: its surface and its crop (07 R189, R201). -/
structure PipeSrc where
  base : Nat
  w : Nat
  h : Nat
  fmt : Nat
  cx : Nat
  cy : Nat
  cw : Nat
  ch : Nat
  deriving DecidableEq, Repr

/-- The source that an inset's registers name. -/
def pipeSrc (r : List Reg64) : PipeSrc :=
  ⟨fld (nth r 1) 47 0, fld (nth r 2) 63 48, fld (nth r 2) 47 32, fld (nth r 0) 58 55,
   fld (nth r 3) 63 48, fld (nth r 3) 47 32, fld (nth r 3) 31 16, fld (nth r 3) 15 0⟩

/-- Is a source format a sheet? -/
def srcSheet (fmt : Nat) : Bool := fmt == 0 || fmt == 1 || (8 ≤ fmt && fmt ≤ 11) || fmt == 13

/-- Tiles of a sheet block of a source, and its header's format code (R189). -/
def srcBlock (fmt : Nat) : Nat × Nat := if fmt = 13 then (3, 0x0007) else ((surfFmt fmt).k, (surfFmt fmt).code)

/-- Subsampling of component `c` of a source (0 Y or R, 1 Cb or G, 2 Cr or B, 3 alpha). -/
def srcSub (fmt c : Nat) : Nat × Nat := if c = 0 ∨ fmt ≥ 12 then (1, 1) else ((surfFmt fmt).sx, (surfFmt fmt).sy)

/-- Does a source hold 10-bit samples? -/
def srcTen (fmt : Nat) : Bool := decide (fmt < 12) && fmt % 2 == 1

/-- Is the header of a sheet block the one its format has (R195)? -/
def State.blockHeaderOk (s : State) (p : PipeSrc) (block : Nat) : Bool :=
  leNat (s.rd (p.base + 512 * (srcBlock p.fmt).1 * block) 2) == (srcBlock p.fmt).2

/-- A sample of a source; none where its tile fails (R189, R195). -/
def State.srcSample (s : State) (p : PipeSrc) (c x y : Nat) : Option Nat :=
  let (sx, sy) := srcSub p.fmt c
  let block := ceilDiv p.w 32 * (y / (8 / sy)) + x / (32 / sx)
  if srcSheet p.fmt && !s.blockHeaderOk p block then none
  else if p.fmt < 12 then s.sampleAt (surfFmt p.fmt) p.base p.w p.h c x y
  else
    let a := p.base + (if p.fmt = 12 then ceilDiv (4 * p.w) 512 * 512 * y + 4 * x + c
      else 1536 * block + 16 + 4 * (y % 8 * 32 + x % 32) + c)
    if s.verifies a then some (leNat (s.rd a 1)) else none

/-- The memory tiles that hold a source's crop (R189). -/
def srcReads (p : PipeSrc) : List Nat :=
  if srcSheet p.fmt then
    let bx := p.cx / 32
    let bY := p.cy / 8
    (List.range (ceilDiv (p.cy + p.ch) 8 - bY)).flatMap (fun j => (List.range (ceilDiv (p.cx + p.cw) 32 - bx)).flatMap (fun i =>
      (List.range (srcBlock p.fmt).1).map (fun t =>
        p.base + 512 * ((srcBlock p.fmt).1 * (ceilDiv p.w 32 * (bY + j) + bx + i) + t))))
  else if p.fmt = 12 then
    (List.range p.ch).flatMap (fun j => (List.range (ceilDiv (4 * (p.cx + p.cw)) 512 - 4 * p.cx / 512)).map (fun t =>
      p.base + 512 * (ceilDiv (4 * p.w) 512 * (p.cy + j) + 4 * p.cx / 512 + t)))
  else
    (List.range 3).flatMap (fun c =>
      let (sx, sy) := srcSub p.fmt c
      let y0 := p.cy / sy
      (List.range (ceilDiv (p.cy + p.ch) sy - y0)).flatMap (fun j =>
        let first := (samplePlace (surfFmt p.fmt) p.w p.h c (p.cx / sx) (y0 + j)).1 / 512
        let last := (samplePlace (surfFmt p.fmt) p.w p.h c (ceilDiv (p.cx + p.cw) sx - 1) (y0 + j)).1 / 512
        (List.range (last + 1 - first)).map (fun t => p.base + 512 * (first + t))))

/-- The failing tiles of a source: those that fail their checksum, and the first tile of a sheet block whose header is not
its format's (R195). -/
def State.srcFails (s : State) (p : PipeSrc) : List Nat :=
  let k := (srcBlock p.fmt).1
  (srcReads p).filter (fun a => !s.verifies a ||
    (srcSheet p.fmt && (a - p.base) / 512 % k == 0 && !s.blockHeaderOk p ((a - p.base) / 512 / k)))

/-! ### Decimation and filtering (R192, R193) -/

/-- The decimation of R192 for a crop and a destination width. -/
def decimation (cw dw : Nat) : Nat :=
  if cw ≤ 2 * dw then 1 else if cw ≤ 4 * dw then 2 else if cw ≤ 8 * dw then 4 else 8

/-- The coefficient set for a ratio num / den (R193). -/
def coefSet (num den : Nat) : Nat := if num ≤ den then 0 else if num ≤ 2 * den then 1 else if num ≤ 4 * den then 2 else 3

/-- A coefficient word in effect on a composer: as taken at a latch, else the built-in one (R193). -/
def State.coefWord (s : State) (n : RegName) (m i : Nat) : Reg64 :=
  s.cmp.coefs.getD (RegAddr.addr ⟨n, m, i⟩) (resetReg ⟨n, m, i⟩)

/-- Tap k of a word of four. -/
def tapOf (w : Reg64) (k : Nat) : Int := signed 16 (fld w (16 * (k % 4) + 15) (16 * (k % 4)))

/-- The eight horizontal taps of a set and phase. -/
def State.hTaps (s : State) (m set ph : Nat) : List Int :=
  (List.range 8).map (fun k => tapOf (s.coefWord .CMP_HCOEF m (128 * set + 2 * ph + k / 4)) k)

/-- The four vertical taps of a set and phase. -/
def State.vTaps (s : State) (m set ph : Nat) : List Int :=
  (List.range 4).map (fun k => tapOf (s.coefWord .CMP_VCOEF m (64 * set + ph)) k)

/-- The source position of destination sample x of dw, from the start of a crop of cw, in 2^-16 sample (R192). -/
def pipePos (cw dw x : Nat) : Int := ((((2 * x + 1) * cw : Nat) : Int) - dw) * 65536 / (2 * dw : Nat)

/-- The same position among groups of `d` samples. -/
def decimatedPos (p : Int) (d : Nat) : Int := (p + 32768).fdiv d - 32768

/-- An index into a crop of n samples, its edges repeated. -/
def clampIx (n : Nat) (i : Int) : Nat := min (n - 1) i.toNat

/-- The sum of some samples, none where one is missing. -/
def sumSome (l : List (Option Int)) : Option Int :=
  l.foldl (fun a b => match a, b with
    | some x, some y => some (x + y)
    | _, _ => none) (some 0)

/-- The value a pipe gives: the filtered value where every step is exact and lies in the coded range, else the free value of
what it is computed from (log 52). `den` is 1,024 times the decimation; `plain` says that the rules give the sum. -/
def pipeValue (top : Nat) (plain : Bool) (lines taps : List Int) (den : Nat) : Nat :=
  let v := ((lines.zip taps).map (fun e => e.1 / (den : Int) * e.2)).sum
  if plain && lines.all (fun l => l % (den : Int) == 0) && v % 1024 == 0 && decide (0 ≤ v / 1024) && decide (v / 1024 ≤ top)
  then (v / 1024).toNat else Config.pipeValue lines taps den % (top + 1)

/-- A source component scaled (R192, R193): crop and destination are the component's own; none where a failed tile entered. -/
def State.scaled (s : State) (m : Nat) (p : PipeSrc) (c x0 y0 cw ch dw dh x y : Nat) : Option Nat :=
  let d := decimation cw dw
  let wd := ceilDiv cw d
  let hp := decimatedPos (pipePos cw dw x) d
  let vp := pipePos ch dh y
  let ht := s.hTaps m (coefSet cw (dw * d)) (hp % 65536 / 1024).toNat
  let vt := s.vTaps m (coefSet ch dh) (vp % 65536 / 1024).toNat
  let step := max 1 (ceilDiv ch dh)
  let group (g yy : Nat) : Option Int := sumSome ((List.range d).map (fun i =>
    (s.srcSample p c (x0 + min (cw - 1) (d * g + i)) (y0 + yy)).map (fun (n : Nat) => (n : Int))))
  let line (yy : Nat) : Option Int := sumSome ((List.range 8).map (fun (k : Nat) =>
    (group (clampIx wd (hp.fdiv 65536 + k - Config.hOrigin)) yy).map (· * (ht[k]?).getD 0)))
  let lines := (List.range (4 * step)).map (fun (k : Nat) => line (clampIx ch (vp.fdiv 65536 + k - step * Config.vOrigin)))
  if lines.any Option.isNone then none
  else some (pipeValue (if srcTen p.fmt then 1023 else 255) (decide (step = 1) && ht.sum == 1024 && vt.sum == 1024)
    (lines.map (·.getD 0)) vt (1024 * d))

/-- The destination of an inset on a grid subsampled by (sx, sy): left, top, width, height. -/
def destGrid (r : List Reg64) (sx sy : Nat) : Int × Int × Nat × Nat :=
  let d := nth r 4
  let x0 := (signed 16 (fld d 63 48)).fdiv sx
  let y0 := (signed 16 (fld d 47 32)).fdiv sy
  let x1 := -((-(signed 16 (fld d 63 48) + (fld d 31 16 : Nat))).fdiv sx)
  let y1 := -((-(signed 16 (fld d 47 32) + (fld d 15 0 : Nat))).fdiv sy)
  (x0, y0, (x1 - x0).toNat, (y1 - y0).toNat)

/-- Component `c` of an inset's source at a position of the canvas's grid subsampled by (sx, sy). -/
def State.pipeAt (s : State) (m : Nat) (r : List Reg64) (c sx sy x y : Nat) : Option Nat :=
  let p := pipeSrc r
  let (x0, y0, dw, dh) := destGrid r sx sy
  let (ux, uy) := srcSub p.fmt c
  let cx := p.cx / ux
  let cy := p.cy / uy
  s.scaled m p c cx cy (ceilDiv (p.cx + p.cw) ux - cx) (ceilDiv (p.cy + p.ch) uy - cy) dw dh
    ((x : Int) - x0).toNat ((y : Int) - y0).toNat

/-! ### Colour (R190) -/

/-- A value brought from one sample depth to another (05 R130, R201; log 52). -/
def depthConv (srcIs10 dstIs10 : Bool) (v : Nat) : Nat :=
  if srcIs10 == dstIs10 then v else if srcIs10 then min 255 ((v + 2) / 4) else 4 * v

/-- The quotient where it is exact and coded, else a free value. -/
def exactOr (top : Nat) (num : Int) (den : Nat) (other : Nat) : Nat :=
  if num % (den : Int) == 0 && decide (0 ≤ num / (den : Int)) && decide (num / (den : Int) ≤ top) then (num / (den : Int)).toNat
  else other % (top + 1)

/-- Component `c` between narrow and full range, as num / den: BT.709's quantisation at `u` codes an 8-bit step (R190). -/
def rangeConv (toFull : Bool) (u c v : Nat) : Int × Nat :=
  let f := 256 * u - 1
  let span := if c = 0 then 219 * u else 224 * u
  let n := if c = 0 then 16 * u else 128 * u
  let g := if c = 0 then 0 else 128 * u
  if toFull then (((v : Int) - n) * f + (g * span : Nat), span) else (((v : Int) - g) * span + (n * f : Nat), f)

/-- Component `c` of R'G'B' codes in a Y'CbCr matrix and range, as num / den: BT.709 for space 0, else BT.2020 (R190). -/
def matrixConv (space : Nat) (full : Bool) (u c r g b : Nat) : Int × Nat :=
  let (kr, kg, kb) := if space = 0 then (2126, 7152, 722) else (2627, 6780, 593)
  let y : Int := (kr * r + kg * g + kb * b : Nat)
  let span := if full then 256 * u - 1 else if c = 0 then 219 * u else 224 * u
  let n := if c = 0 then (if full then 0 else 16 * u) else 128 * u
  let (v, k) : Int × Nat := if c = 0 then (y, 10000) else if c = 1 then (10000 * b - y, 2 * (10000 - kb)) else (10000 * r - y, 2 * (10000 - kr))
  (v * span + (n * k * 255 : Nat), k * 255)

/-- The luma coefficients of a space's matrix: BT.709, else BT.2020 (R190). -/
def lumaCoefs (space : Nat) : Rat × Rat × Rat :=
  if space = 0 then (2126 / 10000, 7152 / 10000, 722 / 10000) else (2627 / 10000, 6780 / 10000, 593 / 10000)

/-- Item `k` of three. -/
def third (l : List Rat) (k : Nat) : Rat := (l[k]?).getD 0

/-- R'G'B' from the coded samples of a source: Y'CbCr at `u` codes an 8-bit step, or RGBA8 (R190). -/
def toRgb (space : Nat) (rgba full : Bool) (u : Nat) (v : List Nat) : List Rat :=
  let code (k : Nat) : Rat := (((v[k]?).getD 0 : Nat) : Rat)
  if rgba then (List.range 3).map (fun k => code k / 255)
  else
    let (kr, kg, kb) := lumaCoefs space
    let top : Rat := ((256 * u - 1 : Nat) : Rat)
    let span (k : Nat) : Rat := if full then top else (((if k = 0 then 219 else 224) * u : Nat) : Rat)
    let y := (code 0 - (if full then 0 else ((16 * u : Nat) : Rat))) / span 0
    let cb := (code 1 - ((128 * u : Nat) : Rat)) / span 1
    let cr := (code 2 - ((128 * u : Nat) : Rat)) / span 2
    let r := y + 2 * (1 - kr) * cr
    let b := y + 2 * (1 - kb) * cb
    [r, (y - kr * r - kb * b) / kg, b]

/-- Component `c` of R'G'B' as a code of a canvas's Y'CbCr, not rounded (R190). -/
def fromRgb (space : Nat) (full : Bool) (u c : Nat) (v : List Rat) : Rat :=
  let (kr, kg, kb) := lumaCoefs space
  let y := kr * third v 0 + kg * third v 1 + kb * third v 2
  let span : Rat := ((if full then 256 * u - 1 else (if c = 0 then 219 else 224) * u : Nat) : Rat)
  match c with
  | 0 => y * span + (if full then 0 else ((16 * u : Nat) : Rat))
  | 1 => (third v 2 - y) / (2 * (1 - kb)) * span + ((128 * u : Nat) : Rat)
  | _ => (third v 0 - y) / (2 * (1 - kr)) * span + ((128 * u : Nat) : Rat)

/-- Linear light through a matrix of primaries, in ten-thousandths. -/
def primaries (rows : List (List Int)) (v : List Rat) : List Rat :=
  rows.map (fun r => ((r.zip v).map (fun e => (e.1 : Rat) / 10000 * e.2)).foldl (· + ·) 0)

/-- BT.709 primaries to BT.2020, and back (BT.2087, BT.2407; log 93). -/
def to2020 : List (List Int) := [[6274, 3293, 433], [691, 9195, 114], [164, 880, 8956]]
def to709 : List (List Int) := [[16605, -5876, -728], [-1246, 11329, -83], [-182, -1006, 11187]]

/-- The transfer of R190 between two spaces, in linear light. -/
def spaceConv (space want : Nat) (v : List Rat) : List Rat :=
  if space = 0 then primaries to2020 v
  else if want = 0 then (primaries to709 (v.map (min 1))).map (fun x => max 0 (min 1 x))
  else v

/-- Component `c` of an inset in a canvas's coded values (R190): same space and range, the component itself; same space, the range and
the matrix; another space, the transfer in linear light. Where the exact value is no code, a free value (log 52). -/
def State.insetSample (s : State) (m : Nat) (f r : List Reg64) (c sx sy x y : Nat) : Option Nat :=
  let ctl := nth r 0
  let fmt := fld ctl 58 55
  let ten := (surfFmt (fld (nth f 0) 57 54)).ten
  let u := if ten then 4 else 1
  let top := 256 * u - 1
  let space := if fld ctl 54 53 = 3 then 0 else fld ctl 54 53
  let want := fld (nth f 0) 53 52
  let full := bit (nth f 0) 51
  let get (k : Nat) : Option Nat := s.pipeAt m r k sx sy x y
  if fmt < 12 ∧ space = want then
    (get c).map (fun v =>
      let v := depthConv (srcTen fmt) ten v
      if bit ctl 52 == full then v
      else let q := rangeConv full u c v
           exactOr top q.1 q.2 (Config.colour [space, bnat (bit ctl 52), want, bnat full, u] [v] c))
  else
    match get 0, get 1, get 2 with
    | some a, some b, some d =>
      let free := Config.colour [space, bnat (bit ctl 52) + bnat (decide (fmt ≥ 12)) * 2, want, bnat full, u] [a, b, d] c
      if space = want then let q := matrixConv space full u c a b d
                         some (exactOr top q.1 q.2 free)
      else
        let v := spaceConv space want (Config.lightOf space (toRgb space (decide (fmt ≥ 12)) (bit ctl 52) (if srcTen fmt then 4 else 1) [a, b, d]))
        let q := fromRgb want full u c (Config.codeOf want v)
        some (exactOr top q.num q.den free)
    | _, _, _ => none

end Sys2Proof.Machine
end

