-- ==== Sys2Proof/Machine/ComposerOps.lean ====
section
/-! DEFINITION. The composers (07): frame boundaries, latch points, commits, fences and groups, release and done items,
composition of insets over the background into the ring, and the CMP registers' side effects. -/
namespace Sys2Proof.Machine

/-- The composers' part of the state replaced. -/
def State.setCmp (s : State) (c : Composers) : State := { s with cmp := c }

/-- A canvas that has not started. -/
def Canvas.start : Canvas :=
  { active := [0, 0, 0, 0, 0], running := false, requests := [], frame := 0, slot := 0, last := none, comp := none,
    next := [], lastBn := none, carry := [], owed := [] }

/-- Key of a canvas. -/
def canKey (m c : Nat) : Nat := 1024 * m + c

/-- A canvas. -/
def State.canvas (s : State) (m c : Nat) : Canvas := s.cmp.canvases.getD (canKey m c) Canvas.start

/-- A canvas set. -/
def State.setCanvas (s : State) (m c : Nat) (x : Canvas) : State :=
  s.setCmp { s.cmp with canvases := s.cmp.canvases.put (canKey m c) x }

/-- An inset. -/
def State.insetOf (s : State) (m c i : Nat) : Inset := s.cmp.insets.getD (64 * canKey m c + i) ⟨false, none, none⟩

/-- An inset set. -/
def State.setInset (s : State) (m c i : Nat) (x : Inset) : State :=
  s.setCmp { s.cmp with insets := s.cmp.insets.put (64 * canKey m c + i) x }

/-- A canvas's shadow registers (R182). -/
def State.canShadow (s : State) (m c : Nat) : List Reg64 :=
  [s.reg .CMP_CAN_CTRL m c, s.reg .CMP_CAN_SIZE m c, s.reg .CMP_CAN_OUT m c, s.reg .CMP_CAN_BG m c, s.reg .CMP_CAN_2110 m c]

/-- An inset's shadow registers (R182). -/
def State.insShadow (s : State) (m c i : Nat) : List Reg64 :=
  let j := 64 * c + i
  [s.reg .CMP_INS_CTRL m j, s.reg .CMP_INS_SRC m j, s.reg .CMP_INS_SIZE m j, s.reg .CMP_INS_CROP m j, s.reg .CMP_INS_DST m j,
   s.reg .CMP_INS_FENCE m j, s.reg .CMP_INS_TARGET m j]

/-- The write of an inset shadow register: its value and the dirty bit (R182). -/
def State.wrInset (s : State) (n : RegName) (m j : Nat) (v : Reg64) : State :=
  let s := s.setReg n (codedWrite n.info (s.reg n m j) v) m j
  s.setInset m (j / 64) (j % 64) { s.insetOf m (j / 64) (j % 64) with dirty := true }

/-- A commit request reaches the composer (R183). -/
def State.commitRequest (s : State) (m c : Nat) : State :=
  s.setCanvas m c { s.canvas m c with requests := (s.canvas m c).requests ++ [s.nanos] }

/-! ### Boundaries (R179, R180) -/

/-- Frame boundaries of canvas fields: num, div * den, and the first one's offset times num; none while there are none. Frames of
negative number have boundaries too where the offset leaves them after time zero. -/
def State.canRaster (s : State) (f : List Reg64) : Option (Nat × Nat × Nat) :=
  if s.flag F.MTB_STATUS_run = false then none else
    match s.raster (fld (nth f 0) 62 60) with
    | none => none
    | some (num, den, off) =>
      let d := (fld (nth f 0) 59 58 + 1) * den
      some (num, d, (off + fld (nth f 1) 31 0 * num) % d)

/-- The latest boundary at or before whole nanosecond `t`, and the one after it. -/
def boundaries (r : Nat × Nat × Nat) (t : Nat) : Nat × Nat :=
  let (num, d, off) := r
  let k := (t * num - off) / d
  (ceilDiv (k * d + off) num, ceilDiv ((k + 1) * d + off) num)

/-! ### Snapshots (R187, R194) -/

/-- Chroma of an inset's source in full resolution: 4:4:4 or RGBA8 (R194). -/
def fullChroma (fmt : Nat) : Bool := fmt == 6 || fmt == 7 || fmt == 10 || fmt == 11 || fmt == 12 || fmt == 13

/-- Does an inset fit the line buffers (R194)? -/
def lineFits (fmt cw ch dw dh : Nat) : Bool :=
  let n := 4 * max 1 (ceilDiv ch dh)
  let w := ceilDiv cw (decimation cw dw)
  decide (n * w ≤ 32768) && (!fullChroma fmt || decide (n * w ≤ 16384))

/-- The cause for which an inset snapshot is rejected, 0 for none (R187); ratios are judged of a destination that is not
empty (log 50). -/
def State.insetCause (s : State) (r : List Reg64) : Nat :=
  let ctl := nth r 0
  let fmt := fld ctl 58 55
  let w := fld (nth r 2) 63 48
  let h := fld (nth r 2) 47 32
  let cx := fld (nth r 3) 63 48
  let cy := fld (nth r 3) 47 32
  let cw := fld (nth r 3) 31 16
  let ch := fld (nth r 3) 15 0
  let dw := fld (nth r 4) 31 16
  let dh := fld (nth r 4) 15 0
  let a := fld (nth r 1) 47 0
  if fmt ≥ 14 then 1
  else if cx + cw > w ∨ cy + ch > h ∨ cw = 0 ∨ ch = 0 then 2
  else if bit ctl 63 ∧ (dw = 0 ∨ dh = 0) then 3
  else if dw ≠ 0 ∧ dh ≠ 0 ∧ (ch > 8 * dh ∨ cw > 16 * dw) then 4
  else if dw ≠ 0 ∧ dh ≠ 0 ∧ lineFits fmt cw ch dw dh = false then 5
  else if a % 512 ≠ 0 ∨ (srcSheet fmt && !s.allGuarded a (srcTiles fmt w h)) then 6
  else if bit ctl 43 ∧ fld (nth r 5) 47 0 % 8 ≠ 0 then 7
  else 0

/-- Slots of a canvas's ring (R196). -/
def ringSlots (f : List Reg64) : Nat := max 1 (fld (nth f 0) 49 48) + 1

/-- The address of a slot of a canvas's ring (R196). -/
def slotAt (f : List Reg64) (k : Nat) : Nat := fld (nth f 2) 47 0 + k * fld (nth f 2) 63 48 * 65536

/-- Is a canvas snapshot valid (R187, R197)? -/
def State.canvasValid (s : State) (f : List Reg64) : Bool :=
  let w := fld (nth f 1) 63 48
  let h := fld (nth f 1) 47 32
  let fmt := fld (nth f 0) 57 54
  let ras := fld (nth f 0) 62 60
  decide (64 ≤ w ∧ w ≤ 7680 ∧ 64 ≤ h ∧ h ≤ 4320) && w % 2 == 0 && h % 2 == 0 && (s.raster ras).isSome && decide (fmt ≤ 11) &&
    fld (nth f 2) 47 0 % 512 == 0 &&
    (List.range (ringSlots f)).all (fun k => s.allGuarded (slotAt f k) (surfTiles (surfFmt fmt) w h)) &&
    (!bit (nth f 4) 63 || ([4, 5, 7, 8, 9, 11].contains fmt && s.get F.MTB_RASTER_GEOM_interlace 0 ras == 0))

/-! ### Items (R181, R188) -/

/-- A release item pushed (R188). -/
def State.releaseItem (s : State) (m c : Nat) (e : Nat × Nat) : State :=
  if s.flag F.CMP_REL_QUEUE_en m then
    s.pushItem (.cmp m) (s.get F.CMP_REL_QUEUE_queue m) [s.stampWord (BitVec.ofNat 128 (c * 2 ^ 54 + e.1 * 2 ^ 48 + e.2))]
  else s

/-- The release item of a snapshot, if it names a source buffer. -/
def State.releaseSnap (s : State) (m c i : Nat) (r : List Reg64) : State :=
  if bit (nth r 0) 63 then s.releaseItem m c (i, fld (nth r 1) 47 0) else s

/-- The done item of a frame (R181). -/
def State.doneItem (s : State) (m c : Nat) (f : CanFrame) (result slot fails : Nat) : State :=
  if s.flag F.CMP_DONE_QUEUE_en m then
    let w0 := f.bn % 2 ^ 64 * 2 ^ 64 + c * 2 ^ 54 + result * 2 ^ 52 + slot * 2 ^ 50 + bnat f.commit * 2 ^ 49 + bnat f.err * 2 ^ 48 +
      min 255 f.flipped * 2 ^ 40 + min 255 f.held * 2 ^ 32 + min 255 f.rejected * 2 ^ 24 + min 255 fails * 2 ^ 16
    s.pushItem (.cmp m) (s.get F.CMP_DONE_QUEUE_queue m)
      [BitVec.ofNat 128 w0, BitVec.ofNat 128 (f.number % 2 ^ 64 * 2 ^ 64 + slotAt f.fields slot)]
  else s

/-! ### The ST 2110-20 output (R197) -/

/-- A complete frame in slot `slot`, of fields `shown`, handed to the flow of a link group for frame `f` (12 R307; log 54). -/
def State.hand2110 (s : State) (m : Nat) (f : CanFrame) (slot : Nat) (shown : List Reg64) : State :=
  let r := nth f.fields 4
  match bit r 63, s.canRaster f.fields with
  | true, some (num, d, _) =>
    let lg := fld r 62 59
    let k := 256 * lg + fld r 58 51
    let fmt := fld (nth shown 0) 57 54
    let w := fld (nth shown 1) 63 48
    let h := fld (nth shown 1) 47 32
    match s.ports.flows.get? k with
    | some x =>
      if x.enabled then
        let v : Vid := ⟨f.bn, f.due, num, d, 0, s.rd (slotAt shown slot) (512 * surfTiles (surfFmt fmt) w h), fmt, w, h, m, fld (nth f.fields 0) 62 60⟩
        { s with ports := { s.ports with flows := s.ports.flows.put k { x with vids := x.vids ++ [v] } } }
      else s.count F.LNK_TX_CNT_drop 1 lg
    | none => s.count F.LNK_TX_CNT_drop 1 lg
  | _, _ => s

/-! ### Ends of frames (R181, R188, R195, R199) -/

/-- The frame behind the one that ended comes into composition. -/
def Canvas.turn (x : Canvas) : Canvas := { x with comp := x.next.head?, next := x.next.drop 1 }

/-- The account of a frame charged for what it moved before it ended, which the spec does not state (R198; log 49). -/
def State.chargePart (s : State) (f : CanFrame) : State :=
  let (n, s) := s.fresh
  s.chargeBytes (fld (nth f.fields 0) 47 36) n

/-- A frame is abandoned at its deadline: result 1, the ring does not advance, the last complete frame is sent again. -/
def State.abandon (s : State) (m c : Nat) (f : CanFrame) : State :=
  let x := s.canvas m c
  let s := (s.setCanvas m c { x.turn with carry := x.carry ++ f.releases }).chargePart f
  let s := (s.count F.CMP_CNT_late 1 m).doneItem m c f 1 0 0
  match x.last with
  | some shown => s.hand2110 m f x.slot shown
  | none => s

/-- The frame in composition is abandoned once its deadline is reached (R181); nothing happens while its raster has no boundaries
(R180). -/
def State.deadline (s : State) (m c : Nat) : State :=
  match (s.canvas m c).comp with
  | some f => if s.nanos ≥ f.due ∧ (s.canRaster f.fields).isSome then s.abandon m c f else s
  | none => s

/-- Frames latched and not begun are not composed: what they would have released waits for the next frame (R199). -/
def State.dropUnbegun (s : State) (m c : Nat) : State :=
  let x := s.canvas m c
  let out := (x.comp.toList.filter (fun f => decide (s.nanos < f.bn))) ++ x.next
  s.setCanvas m c { x with
    comp := x.comp.filter (fun f => decide (f.bn ≤ s.nanos)), next := [], owed := x.owed ++ out.flatMap (·.releases) }

/-- A frame in progress ends void at a halt (R199). -/
def State.voidFrame (s : State) (m c : Nat) : State :=
  let s := s.dropUnbegun m c
  let x := s.canvas m c
  match x.comp with
  | some f => ((s.setCanvas m c { x with comp := none, carry := x.carry ++ f.releases }).chargePart f).doneItem m c f 2 0 0
  | none => s

/-! ### Composition (R191, R195, R196) -/

/-- The alpha of an inset at a luma position of the canvas, 0 outside its destination; none where a failed tile entered it. -/
def State.alphaAt (s : State) (m : Nat) (r : List Reg64) (x y : Nat) : Option Nat :=
  let (x0, y0, dw, dh) := destGrid r 1 1
  let a := fld (nth r 0) 51 44
  if (x : Int) < x0 ∨ (y : Int) < y0 ∨ (x : Int) ≥ x0 + dw ∨ (y : Int) ≥ y0 + dh then some 0
  else if fld (nth r 0) 58 55 ≥ 12 then (s.pipeAt m r 3 1 1 x y).map (alphaOf a)
  else some (alphaOf a 255)

/-- A canvas sample: the insets in index order over the background (R191), or none where a failed tile entered it. -/
def State.composeSample (s : State) (m : Nat) (f : List Reg64) (ps : List (List Reg64)) (bg c sx sy x y : Nat) : Option Nat :=
  ps.foldl (fun (d : Option Nat) r =>
    let as := (List.range sy).flatMap (fun j => (List.range sx).map (fun i => s.alphaAt m r (sx * x + i) (sy * y + j)))
    if as.any Option.isNone then none else
      let a := meanUp (as.map (·.getD 0))
      if a = 0 then d else
        match d, s.insetSample m f r c sx sy x y with
        | some v, some w => some (blend a w v)
        | _, _ => none) (some bg)

/-- A component of the background in the canvas's depth (R201). -/
def background (bg : Reg64) (ten : Bool) (c : Nat) : Nat :=
  let v := if c = 0 then fld bg 47 32 else if c = 1 then fld bg 31 16 else fld bg 15 0
  if ten then v % 1024 else min 255 ((v + 2) / 4)

/-- Where the previous complete frame has the sample co-located with one of a canvas: its format, base and size, and the place in its
plane; none outside it (R195). -/
def prevPlace (t : SurfFmt) (prev : List Reg64 × Nat) (c x y : Nat) : Option (SurfFmt × Nat × Nat × Nat × Nat × Nat) :=
  let u := surfFmt (fld (nth prev.1 0) 57 54)
  let w := fld (nth prev.1 1) 63 48
  let h := fld (nth prev.1 1) 47 32
  let lx := if c = 0 then x else t.sx * x
  let ly := if c = 0 then y else t.sy * y
  if lx < w ∧ ly < h then some (u, slotAt prev.1 prev.2, w, h, if c = 0 then lx else lx / u.sx, if c = 0 then ly else ly / u.sy) else none

/-- That sample; none where there is none, or its tile fails (R195). -/
def State.prevSample (s : State) (t : SurfFmt) (prev : Option (List Reg64 × Nat)) (c x y : Nat) : Option Nat :=
  match prev.bind (fun p => prevPlace t p c x y) with
  | some (u, base, w, h, px, py) => (s.sampleAt u base w h c px py).map (depthTo u.ten t.ten)
  | none => none

/-- The samples of a component plane of a canvas, none where a failed tile entered. -/
def State.rawPlane (s : State) (m : Nat) (f : List Reg64) (ps : List (List Reg64)) (c : Nat) : List (List (Option Nat)) :=
  let t := surfFmt (fld (nth f 0) 57 54)
  let sx := if c = 0 then 1 else t.sx
  let sy := if c = 0 then 1 else t.sy
  (List.range (ceilDiv (fld (nth f 1) 47 32) sy)).map (fun y => (List.range (ceilDiv (fld (nth f 1) 63 48) sx)).map (fun x =>
    s.composeSample m f ps (background (nth f 3) t.ten c) c sx sy x y))

/-- A component plane of a frame; samples of failed tiles come from the previous complete frame, else the background (R195). -/
def State.composePlane (s : State) (m : Nat) (f : List Reg64) (ps : List (List Reg64)) (prev : Option (List Reg64 × Nat)) (c : Nat) : Plane :=
  let t := surfFmt (fld (nth f 0) 57 54)
  (s.rawPlane m f ps c).zipIdx.map (fun r => r.1.zipIdx.map (fun e =>
    match e.1 with
    | some v => v
    | none => (s.prevSample t prev c e.2 r.2).getD (background (nth f 3) t.ten c)))

/-- The tiles of the previous frame that a frame reads (R195). -/
def State.prevTiles (s : State) (m : Nat) (f : List Reg64) (ps : List (List Reg64)) (prev : Option (List Reg64 × Nat)) : List Nat :=
  let t := surfFmt (fld (nth f 0) 57 54)
  ((List.range 3).flatMap (fun c => (s.rawPlane m f ps c).zipIdx.flatMap (fun r => r.1.zipIdx.filterMap (fun e =>
    match e.1 with
    | some _ => none
    | none => (prev.bind (fun p => prevPlace t p c e.2 r.2)).map (fun (u, base, w, h, px, py) =>
        (base + (samplePlace u w h c px py).1) / 512 * 512))))).eraseDups

/-- The registers of a frame's enabled insets, in index order. -/
def CanFrame.enabled (f : CanFrame) : List (List Reg64) := (f.shown.map (·.2)).filter (fun r => bit (nth r 0) 63)

/-- The failing tiles of a frame reported: a sheet block of another format among them (R189, R195; 13 R329). -/
def State.reportTiles (s : State) (m : Nat) (failed : List Nat) : State :=
  failed.foldl (fun (s : State) a => s.reportFail .composer (routerOf (.cmp m)).1 (routerOf (.cmp m)).2 a) s

/-- A canvas frame completes (R181, R188, R195-R198): its slot is written, the items are pushed, the ring advances. -/
def State.composed (s : State) (m c : Nat) : State :=
  let x := s.canvas m c
  match x.comp with
  | none => s
  | some f =>
    if s.nanos < f.bn ∨ (s.canRaster f.fields).isNone then s
    else if s.nanos ≥ f.due then s.abandon m c f else
      let w := fld (nth f.fields 1) 63 48
      let h := fld (nth f.fields 1) 47 32
      let t := surfFmt (fld (nth f.fields 0) 57 54)
      let slot := if x.last.isSome then (x.slot + 1) % ringSlots f.fields else 0
      let prev := x.last.map (fun l => (l, x.slot))
      let ps := f.enabled
      let reads := ps.flatMap (fun r => srcReads (pipeSrc r))
      let failed := ps.flatMap (fun r => s.srcFails (pipeSrc r))
      let old := s.prevTiles m f.fields ps prev
      let (ts, s) := s.fresh
      let bytes := packSurface t w h ts (s.composePlane m f.fields ps prev 0) (s.composePlane m f.fields ps prev 1) (s.composePlane m f.fields ps prev 2)
      let s := (s.reportTiles m (failed ++ old.filter (fun a => !s.verifies a))).count F.CMP_CNT_crc_fail failed.length m
      let s := s.putTiles (slotAt f.fields slot) (tilesOf (bytes.length / 512 + 1) bytes)
      let s := s.chargeBytes (fld (nth f.fields 0) 47 36) (bytes.length + 512 * (reads.length + old.length))
      let s := s.setCanvas m c { x.turn with slot := slot, last := some f.fields, carry := [] }
      let s := s.doneItem m c f 0 slot failed.length
      let s := (x.carry ++ f.releases).foldl (fun (s : State) e => s.releaseItem m c e) s
      s.hand2110 m f slot f.fields

/-! ### The latch (R183-R186) -/

/-- Coefficient words take effect at a latch (R193). -/
def State.takeCoefs (s : State) (m : Nat) : State :=
  let mine (a : Nat) : Bool := match locate a with
    | some r => (r.name == .CMP_HCOEF || r.name == .CMP_VCOEF) && r.unit == m
    | none => false
  s.setCmp { s.cmp with coefs := (s.regs.filter (fun e => mine e.1)).foldl (fun k e => k.put e.1 e.2) s.cmp.coefs }

/-- A dirty inset's snapshot is taken (R184): pending, or rejected. Answers how many were rejected so far. -/
def State.takeInset (s : State) (m c : Nat) (n i : Nat) : Nat × State :=
  let x := s.insetOf m c i
  if x.dirty = false then (n, s) else
    let r := s.insShadow m c i
    let s := match x.pend with
      | some old => s.releaseSnap m c i old
      | none => s
    let cause := s.insetCause r
    if cause = 0 then (n, s.setInset m c i { x with dirty := false, pend := some r })
    else
      let s := s.setInset m c i { x with dirty := false, pend := none }
      let s := (s.put F.CMP_INS_STAT_err 1 m (64 * c + i)).put F.CMP_INS_STAT_err_code cause m (64 * c + i)
      (n + 1, (s.releaseSnap m c i r).count F.CMP_CNT_rejected 1 m)

/-- Is a pending snapshot ready: unfenced, or its fence word has reached the target (R185)? -/
def State.insetReady (s : State) (r : List Reg64) : Bool :=
  bit (nth r 0) 43 == false ||
    decide ((leNat (s.rd (fld (nth r 5) 47 0) 8) + 2 ^ 64 - (nth r 6).toNat) % 2 ^ 64 < 2 ^ 63)

/-- The pending snapshots of a canvas: inset, registers, ready. -/
def State.pendings (s : State) (m c : Nat) : List (Nat × List Reg64 × Bool) :=
  (List.range 64).filterMap (fun i => (s.insetOf m c i).pend.map (fun r => (i, r, s.insetReady r)))

/-- Does a pending snapshot flip: ready, with every pending member of its group (R184)? -/
def goes (ps : List (Nat × List Reg64 × Bool)) (e : Nat × List Reg64 × Bool) : Bool :=
  let g := fld (nth e.2.1 0) 62 59
  if g = 0 then e.2.2 else ps.all (fun q => fld (nth q.2.1 0) 62 59 != g || q.2.2)

/-- A pending snapshot flips, or is held (R184, R186): flipped, held, and the releases of what it replaces. -/
def State.flip (m c : Nat) (ps : List (Nat × List Reg64 × Bool)) (a : Nat × Nat × List (Nat × Nat) × State)
    (e : Nat × List Reg64 × Bool) : Nat × Nat × List (Nat × Nat) × State :=
  let (flipped, held, rel, s) := a
  let x := s.insetOf m c e.1
  if goes ps e then
    let old := match x.active with
      | some r => if bit (nth r 0) 63 then [(e.1, fld (nth r 1) 47 0)] else []
      | none => []
    (flipped + 1, held, rel ++ old, s.setInset m c e.1 { x with active := some e.2.1, pend := none })
  else (flipped, held + 1, rel, (s.bump F.CMP_INS_STAT_held 1 m (64 * c + e.1)).count F.CMP_CNT_held 1 m)

/-- The active insets of a canvas. -/
def State.shownInsets (s : State) (m c : Nat) : List (Nat × List Reg64) :=
  (List.range 64).filterMap (fun i => (s.insetOf m c i).active.map (fun r => (i, r)))

/-- bn + Pc of a frame with the fields latched for it; `due` is the boundary after `bn` by the fields before (R179, R181). -/
def State.dueOf (s : State) (old new : List Reg64) (bn due : Nat) : Nat :=
  match s.canRaster old, s.canRaster new with
  | some (num, d, _), some (num', d', _) => if num = num' ∧ d = d' then due else ceilDiv (bn * num' + d') num'
  | _, some (num', d', _) => ceilDiv (bn * num' + d') num'
  | _, none => due

/-- The latch of boundary `bn` on a canvas (R184): it takes the requests that came before its latch point `at_` (R183). -/
def State.latch (s : State) (m c bn due at_ : Nat) : State :=
  let s := s.takeCoefs m
  let x := s.canvas m c
  let taken := x.requests.any (fun n => decide (n < at_))
  let snap := s.canShadow m c
  let bad := taken && !s.canvasValid snap
  let fields := if taken && !bad then snap else x.active
  let s := if bad then s.put F.CMP_CAN_STAT_err 1 m c else s
  let (rejected, s) := if taken then (List.range 64).foldl (fun (a : Nat × State) i => a.2.takeInset m c a.1 i) (0, s) else (0, s)
  let ps := s.pendings m c
  let fences := (ps.filter (fun e => bit (nth e.2.1 0) 43)).length
  let s := (List.range fences).foldl (fun s _ => s.chargeBytes (fld (nth fields 0) 47 36) 8) s
  let (flipped, held, rel, s) := ps.foldl (State.flip m c ps) (0, 0, [], s)
  let on := if taken && !bad then bit (nth snap 0) 63 else x.running
  let fresh := on && !x.running
  let number := if fresh then 0 else x.frame
  let f : CanFrame := ⟨bn, s.dueOf x.active fields bn due, number, taken, bad, flipped, held, rejected, x.owed ++ rel, fields, s.shownInsets m c⟩
  let x := { x with active := fields, running := on, requests := x.requests.filter (fun n => decide (at_ ≤ n)), lastBn := some bn,
                    frame := if on then number + 1 else x.frame, last := if fresh then none else x.last }
  if on then
    let x := { x with owed := [] }
    s.setCanvas m c (match x.comp with
      | none => { x with comp := some f }
      | some _ => { x with next := x.next ++ [f] })
  else s.setCanvas m c { x with owed := x.owed ++ rel }

/-- Does a composer start frames: enabled and not drained, halted or gated (R199)? -/
def State.composerRuns (s : State) (m : Nat) : Bool := s.flag F.CMP_CTRL_en m && decide (s.get F.CMP_STATUS_state m ≤ 1) &&
  !s.sys.draining.contains (.composer, m)

/-- LATCH_POINT: the latch of the next boundary, once it is due and not taken before (R183, R184). -/
def State.latchPoint (s : State) (m c : Nat) : State :=
  let x := s.canvas m c
  let lead := clampNat (s.get F.CMP_CTRL_latch_ns m) 2000 50000
  if s.composerRuns m = false then s else
    match s.canRaster (if x.running then x.active else s.canShadow m c) with
    | none => s
    | some r =>
      let t := s.nanos + lead
      let (bn, due) := boundaries r t
      if t * r.1 < r.2.2 ∨ x.lastBn = some bn ∨ (x.running = false ∧ x.requests.all (fun n => decide (bn - lead ≤ n))) then s
      else (s.deadline m c).latch m c bn due (bn - lead)

/-! ### Registers (R201) -/

/-- The write of CMP_CTRL: latch_ns clamped. -/
def State.wrCmpCtrl (s : State) (m : Nat) (v : Reg64) : State :=
  let s := (s.put F.CMP_CTRL_en (fld v 63 63) m).put F.CMP_CTRL_latch_ns (clampNat (fld v 15 0) 2000 50000) m
  if s.get F.CMP_STATUS_state m ≤ 1 then s.put F.CMP_STATUS_state (fld v 63 63) m else s

/-- CMP_CAN_STAT as it reads. -/
def State.canStatView (s : State) (m c : Nat) : Reg64 :=
  let x := s.canvas m c
  putFld (putFld (putFld (s.reg .CMP_CAN_STAT m c) 63 62 x.slot) 60 60 (bnat (!x.requests.isEmpty))) 47 0 x.frame

/-- CMP_INS_STAT as it reads. -/
def State.insStatView (s : State) (m j : Nat) : Reg64 :=
  let x := s.insetOf m (j / 64) (j % 64)
  putFld (putFld (putFld (s.reg .CMP_INS_STAT m j) 30 30 (bnat x.pend.isSome)) 29 29 (bnat x.dirty)) 28 28
    (match x.active with
     | some r => fld (nth r 0) 63 63
     | none => 0)

end Sys2Proof.Machine
end

