-- ==== Sys2Proof/Machine/Composer.lean ====
section
/-! DEFINITION. The meanings of the composers' commands that are no register writes (07; 02 R59). -/
namespace Sys2Proof.Machine

/-- LATCH_POINT (R183, R184). -/
def execLatchPoint (cmp c : Nat) (s : State) : Host.Outcome State Fault Refusal := .next (s.latchPoint cmp c)

/-- FRAME_COMPOSED (R181). -/
def execFrameComposed (cmp c : Nat) (s : State) : Host.Outcome State Fault Refusal := .next (s.composed cmp c)

/-- FRAME_DEADLINE_MISS (R181). -/
def execFrameDeadlineMiss (cmp c : Nat) (s : State) : Host.Outcome State Fault Refusal := .next (s.deadline cmp c)

/-- FIRING_COMMIT_CANVAS (R183; 02 R59 action 0x1): a firing that reaches the composer requests a commit. -/
def execFiringCommitCanvas (i : Nat) (s : State) : Host.Outcome State Fault Refusal :=
  match s.takeFiring i 1 with
  | none => .next s
  | some (f, s) => .next (s.commitRequest (f.operand / 1024 % 4) (f.operand % 1024))

end Sys2Proof.Machine
end

