-- ==== Sys2Proof/Machine/LogOps.lean ====
section
/-! DEFINITION. The log book (16): records, the ring, flushes to flash, the power-fail flush, commands and register views. -/
namespace Sys2Proof.Machine

/-- An erased flash byte; what flash that nothing has programmed reads as (log 16). -/
abbrev erased : Byte := 0xFF

/-! ### Records (R366-R368) -/

/-- Words 0 to 3 of a record with the given mark (R366). -/
def LogRec.words (r : LogRec) (mark : Nat) : List Word :=
  let snap (k : Nat) : Nat := (r.snap[k]?).getD 0
  let w2 := (List.range 4).foldl (fun n k => n + snap k * 2 ^ (32 * k)) 0
  let w3 := (List.range 4).foldl (fun n k => n + snap (4 + k) * 2 ^ (32 * k)) 0
  [BitVec.ofNat 128 (r.time * 2 ^ 32 + r.code * 2 ^ 16 + r.block * 2 ^ 7 + r.unit),
   BitVec.ofNat 128 (r.seq * 2 ^ 96 + r.rep * 2 ^ 80 + r.overrun * 2 ^ 64 + r.severity * 2 ^ 61 + r.snap.length * 2 ^ 57 +
     r.mode * 2 ^ 55 + bnat r.prog * 2 ^ 54 + mark),
   BitVec.ofNat 128 w2, BitVec.ofNat 128 w3]

/-- The 64 bytes of a record in address order. -/
def LogRec.bytes (r : LogRec) (mark : Nat) : List Byte := (r.words mark).flatMap (fun w => leBytes 16 w.toNat)

/-- The valid mark of 64 record bytes (R368). -/
def markOf (b : List Byte) : Nat :=
  let c := crc32c (b.take 16 ++ b.drop 20)
  if c = 0xFFFFFFFF then 0xFFFFFFFE else c

/-- The bytes of a record as flash holds them. -/
def LogRec.flashBytes (r : LogRec) : List Byte := r.bytes (markOf (r.bytes 0))

/-- Is a flash record valid (R368)? -/
def markValid (b : List Byte) : Bool := leNat ((b.drop 16).take 4) == markOf b

/-! ### The ring (R371-R373) -/

/-- A slot is free: never used, or its record is in flash. -/
def State.slotFree (s : State) (i : Nat) : Bool :=
  match s.log.ring.get? i with
  | none => true
  | some r => r.flushed

/-- The first free slot from `i` on, in ring order. -/
def State.freeSlot (s : State) : Nat → Nat → Option Nat
  | 0, _ => none
  | n + 1, i => if s.slotFree (i % 4096) then some (i % 4096) else State.freeSlot s n (i + 1)

/-- Does seq `a` precede `b` in the order of a 32-bit count? -/
def seqBefore (a b : Nat) : Bool := (b + 2 ^ 32 - a) % 2 ^ 32 < 2 ^ 31 && a != b

/-- The slot that service mode overwrites in a full ring: the oldest record of the lowest severity, if not above `sev`. -/
def State.victim (s : State) (sev : Nat) : Option Nat :=
  let best := s.log.ring.foldl (fun (b : Option (Nat × LogRec)) e =>
    match b with
    | none => some e
    | some (_, r) =>
      if e.2.severity < r.severity || (e.2.severity == r.severity && seqBefore e.2.seq r.seq) then some e else b) none
  match best with
  | some (i, r) => if r.severity ≤ sev then some i else none
  | none => none

/-- A new record discarded (R373). -/
def State.discardRec (s : State) : State := (s.count F.LOG_CNT_discarded).put F.LOG_STATUS_discard_evt 1

/-- A new record written into slot `i` (R371, R372, R377): seq, overrun, and the flush that its severity asks for. -/
def State.writeRec (s : State) (i : Nat) (e : LogRec) : State :=
  let r := { e with seq := s.log.seq, overrun := min 0xFFFF s.log.pendOver, flushed := false }
  let wants := decide (e.severity ≥ 6) && e.code != 0x0701 && s.flag F.LOG_FLASH_en
  let s := { s with log := { s.log with
    ring := s.log.ring.put i r, seq := (s.log.seq + 1) % 2 ^ 32, pendOver := 0, newest := i, used := true, openRec := some i,
    flushReq := s.log.flushReq || wants } }
  if e.severity ≥ 6 then s.put F.LOG_STATUS_sev_evt 1 else s

/-- A new record (R372, R373). -/
def State.newRec (s : State) (e : LogRec) : State :=
  match s.freeSlot 4096 (if s.log.used then s.log.newest + 1 else 0) with
  | some i => s.writeRec i e
  | none =>
    if s.get F.LOG_CTRL_mode = 1 then
      match s.victim e.severity with
      | some i => s.writeRec i e
      | none => s.discardRec
    else s.discardRec

/-- The oldest captured entry moves into the ring: merged into the open record or written as a new one (R370, R371). -/
def State.moveEntry (s : State) : State :=
  match s.log.capture with
  | [] => s
  | e :: rest =>
    let s := { s with log := { s.log with capture := rest } }
    match s.log.openRec.bind (fun i => (s.log.ring.get? i).map (fun r => (i, r))) with
    | some (i, r) =>
      if e.same r then
        let n := satAdd 16 r.rep (1 + e.rep)
        { s with log := { s.log with
          ring := s.log.ring.put i { r with rep := n }, openRec := if n = 0xFFFF then none else s.log.openRec } }
      else s.newRec e
    | none => s.newRec e

/-- A record of the log book's own, written at once. -/
def State.ownRec (s : State) (code sev : Nat) (snap : List Nat) : State :=
  s.newRec { time := s.stamp, code := code, block := 4, unit := 0, severity := sev, prog := false,
             mode := s.get F.LOG_CTRL_mode, snap := snap, rep := 0, seq := 0, overrun := 0, flushed := false }

/-! ### Flash (R375, R376) -/

/-- Flash number of a byte of the log region. -/
def State.regionNo (s : State) (off : Nat) : Nat :=
  s.get F.LOG_FLASH_cs * 2 ^ 32 + s.get F.LOG_FLASH_base * 2 ^ 26 + off

/-- The 64 bytes of a record slot of the region. -/
def State.slotBytes (s : State) (slot : Nat) : List Byte := Mem.gets erased s.flash (s.regionNo (64 * slot)) 64

/-- Is a sector of the region erased? -/
def State.sectorErased (s : State) (n : Nat) : Bool :=
  let lo := s.regionNo (65536 * n)
  !s.flash.any (fun c => decide (lo ≤ c.1 ∧ c.1 < lo + 65536))

/-- Does a sector of the region hold a record (R368)? -/
def State.sectorHolds (s : State) (n : Nat) : Bool := (List.range 1024).any (fun i => markValid (s.slotBytes (1024 * n + i)))

/-- A sector of the region erased. -/
def State.eraseSector (s : State) (n : Nat) : State :=
  let lo := s.regionNo (65536 * n)
  { s with flash := s.flash.filter (fun c => !decide (lo ≤ c.1 ∧ c.1 < lo + 65536)) }

/-- The two sectors after the write point are kept erased; a sector that holds records is erased in service mode alone, and else flash is
full (R375). -/
def State.eraseAhead (s : State) : Option State :=
  let k := s.log.flashSlot / 1024
  [(k + 1) % 1024, (k + 2) % 1024].foldl (fun s n =>
    match s with
    | none => none
    | some s => if s.sectorErased n then some s
      else if s.get F.LOG_CTRL_mode = 1 ∨ s.sectorHolds n = false then some (s.eraseSector n) else none) (some s)

/-- The sector whose first slot holds the valid record of greatest seq (R376). -/
def State.lastSector (s : State) : Option Nat :=
  ((List.range 1024).foldl (fun (b : Option (Nat × Nat)) n =>
    let r := s.slotBytes (1024 * n)
    if !markValid r then b else
      let q := leNat ((r.drop 28).take 4)
      match b with
      | none => some (n, q)
      | some (_, p) => if seqBefore p q then some (n, q) else b) none).map (·.1)

/-- The first slot of sector n from `i` on that is erased; the next sector where none is. -/
def State.erasedSlot (s : State) (n : Nat) : Nat → Nat → Nat
  | 0, _ => (n + 1) % 1024 * 1024
  | k + 1, i => if (s.slotBytes (1024 * n + i)).all (· == erased) then 1024 * n + i else State.erasedSlot s n k (i + 1)

/-- LOG_FLASH.en changes to 1: the write point is found (R376). -/
def State.findWritePoint (s : State) : State :=
  let slot := match s.lastSector with
    | none => 0
    | some n => s.erasedSlot n 1024 0
  { s with log := { s.log with flashSlot := slot, flushSec := s.nanos / 10 ^ 9, flushReq := false } }

/-! ### Flushes (R377-R379) -/

/-- Ring slots of unflushed records inserted in ascending seq (and, for a power-fail flush, descending severity). -/
def insertSlot (power : Bool) (x : Nat × LogRec) : List (Nat × LogRec) → List (Nat × LogRec)
  | [] => [x]
  | y :: ys =>
    let first := if power && x.2.severity != y.2.severity then decide (x.2.severity > y.2.severity) else seqBefore x.2.seq y.2.seq
    if first then x :: y :: ys else y :: insertSlot power x ys

/-- The unflushed records' slots in the order a flush takes them. -/
def State.flushOrder (s : State) (power : Bool) : List Nat :=
  (((s.log.ring.filter (fun e => !e.2.flushed)).foldl (fun l e => insertSlot power e l) []).map (·.1))

/-- A command of LOG_CMD reported (R382). -/
def State.logReport (s : State) (ticket result : Nat) : State :=
  let s := (s.put F.LOG_CMD_STAT_ticket ticket).put F.LOG_CMD_STAT_result result
  if result = 1 then s.bump F.LOG_CMD_STAT_done else s

/-- A flush ends: the flush command it served is reported. -/
def State.flushEnds (s : State) (result : Nat) : State :=
  let s := { s with log := { s.log with flush := none } }
  match s.log.cmd with
  | none => s
  | some c => if c.served.isNone then s else ({ s with log := { s.log with cmd := none } }).logReport c.ticket result

/-- A flush starts (R371, R372, R377): a pending overrun is carried by record 0x0703, what is unflushed is taken, and
the open record, taken too, is closed. -/
def State.startFlush (s : State) (power : Bool) : State :=
  let s := if s.log.pendOver ≠ 0 then s.ownRec 0x0703 4 [] else s
  let left := s.flushOrder power
  let s := { s with log := { s.log with
    flush := some ⟨left, power⟩, flushReq := false, openRec := none, flushSec := s.nanos / 10 ^ 9,
    cmd := s.log.cmd.map (fun c => { c with served := some 1 }) } }
  if left.isEmpty then s.flushEnds 1 else s

/-- One record programmed: payload, then mark (R375). -/
def State.programRec (s : State) (i : Nat) : State :=
  match s.log.ring.get? i with
  | none => s
  | some r =>
    let s := { s with flash := Mem.sets erased s.flash (s.regionNo (64 * s.log.flashSlot)) r.flashBytes }
    { s with log := { s.log with ring := s.log.ring.put i { r with flushed := true }, flashSlot := (s.log.flashSlot + 1) % 2 ^ 20,
                                 openRec := if s.log.openRec = some i then none else s.log.openRec } }

/-- The next page of a flush: up to the page's end, in the flush's order (R375, R379). -/
def State.flushPage (s : State) : State :=
  match s.log.flush with
  | none => s
  | some f =>
    let left := if f.power then s.flushOrder true else f.left
    match s.eraseAhead with
    | none => (s.put F.LOG_STATUS_flash_full 1).flushEnds 4
    | some s =>
      let s := s.put F.LOG_STATUS_flash_full 0
      let n := 4 - s.log.flashSlot % 4
      let s := (left.take n).foldl State.programRec s
      let left := if f.power then s.flushOrder true else left.drop n
      let s := { s with log := { s.log with flush := some { f with left := left } } }
      if left.isEmpty then s.flushEnds 1 else s

/-- LOG_STATUS as it reads. -/
def State.logStatusView (s : State) : Reg64 :=
  let v := putFld (putFld (s.reg .LOG_STATUS) 63 63 (bnat s.ringFull)) 62 62 (bnat s.log.flush.isSome)
  putFld (putFld v 44 32 s.unflushed) 31 0 s.log.seq

/-- A flush ends in error (R378). DESIGN CHOICE (log 16): the failed page holds nothing. -/
def State.flashFails (s : State) : State :=
  if s.log.flush.isNone then s else
    let s := ((s.put F.LOG_STATUS_flush_err 1).count F.LOG_CNT_flash_err).flushEnds 4
    s.ownRec 0x0701 6 (snapOf s.logStatusView ++ snapOf (s.reg .LOG_FLASH))

/-- The fall of PWRFAIL_N at the log book (R377, R379): record 0x0702, and the flush while flash is enabled. -/
def State.powerFlush (s : State) : State :=
  let s := s.ownRec 0x0702 6 []
  if s.flag F.LOG_FLASH_en then s.startFlush true else s

/-! ### Register writes and views (R376, R380, R382) -/

/-- The write of LOG_CMD: busy, a bad op or flash disabled refuse it (log 90); a flush is asked for, a sector is copied. -/
def State.wrLogCmd (s : State) (v : Reg64) : State :=
  let t := fld v 59 52
  if s.log.cmd.isSome then s.logReport t 2
  else if !s.flag F.LOG_FLASH_en then s.logReport t 3
  else
    match fld v 63 60 with
    | 1 => { s with log := { s.log with cmd := some ⟨1, t, 0, 0, 0, none⟩, flushReq := true } }
    | 2 =>
      let b := Mem.gets erased s.flash (s.regionNo (65536 * fld v 9 0)) 65536
      (s.wr (s.get F.LOG_RD_ADDR_addr) b).logReport t 1
    | _ => s.logReport t 3

/-- The write of LOG_FLASH: a change of en to 1 finds the write point (R376). -/
def State.wrLogFlash (s : State) (v : Reg64) : State :=
  let was := s.flag F.LOG_FLASH_en
  let s := s.setReg .LOG_FLASH (codedWrite RegName.LOG_FLASH.info (s.reg .LOG_FLASH) v)
  if bit v 63 && !was then s.findWritePoint else s

/-- LOG_WRPTR as it reads. -/
def State.wrptrView (s : State) : Reg64 := BitVec.ofNat 64 (s.log.flashSlot * 2 ^ 32 + s.log.newest)

/-- LOG_RING[i] as it reads: bytes 8j to 8j + 7 of ring slot r (R382). -/
def State.ringView (s : State) (i : Nat) : Reg64 :=
  match s.log.ring.get? (i / 8) with
  | none => 0
  | some r => BitVec.ofNat 64 (leNat (((r.bytes 0).drop (8 * (i % 8))).take 8))

end Sys2Proof.Machine
end

