-- ==== Sys2Proof/Machine/CoreOps.lean ====
section
/-! DEFINITION. Cores (09, 10): registers, memories and address translation, the saved context, the start and end of tasks,
traps, replies, and the mover. -/
namespace Sys2Proof.Machine

/-- A core after reset: every register zero (log 13). -/
def Core.cold : Core :=
  { g := [], w := [], p := [], m := [], c := [], acc := [], pc := 0, loops := [], task := none, started := false, wait := .no,
    syncing := false, sleep := false, ops := [], replies := [], posted := 0, cycle := 0, ready := [], since := 0,
    holdAt := none, ticket := 0, moves := [], held := true, psr := 0, tvec := 0, epc := 0, cause := 0,
    tval := 0, ptbr := 0, tlb := [], presented := none }

/-- Core `n`. -/
def State.core (s : State) (n : Nat) : Core := s.cores.getD n Core.cold

/-- Core `n` set. -/
def State.setCore (s : State) (n : Nat) (c : Core) : State := { s with cores := s.cores.put n c }

/-- Is `n` a control core's number? -/
def isControl (n : Nat) : Bool := decide (n ≥ 1024)

/-! ### Registers (R228, R229) -/

/-- Scalar register `i`; g0 reads as zero. -/
def Core.gr (c : Core) (i : Nat) : Reg64 := if i = 0 then 0 else c.g.getD i 0

/-- Scalar register `i` written; a write to g0 is discarded. -/
def Core.setG (c : Core) (i : Nat) (v : Reg64) : Core := if i = 0 then c else { c with g := c.g.put i v }

/-- Vector register `i`. -/
def Core.wr (c : Core) (i : Nat) : Word := c.w.getD i 0

/-- Vector register `i` written. -/
def Core.setW (c : Core) (i : Nat) (v : Word) : Core := { c with w := c.w.put i v }

/-- Pointer `i`. -/
def Core.pr (c : Core) (i : Nat) : Reg64 := c.p.getD i 0

/-- Modifier `i`. -/
def Core.mr (c : Core) (i : Nat) : Reg64 := c.m.getD i 0

/-- Loop counter `i`: [63:32] read as zero. -/
def Core.cr (c : Core) (i : Nat) : Reg64 := c.c.getD i 0 &&& 0xFFFFFFFF

/-- Loop counter `i` written. -/
def Core.setC (c : Core) (i : Nat) (v : Reg64) : Core := { c with c := c.c.put i (v &&& 0xFFFFFFFF) }

/-- A lane at zero. -/
def Lane.zero : Lane := ⟨0, 0, false⟩

/-- A cleared accumulator of a mode. -/
def Accum.clear (paired : Bool) : Accum := ⟨paired, List.replicate 8 Lane.zero⟩

/-- Accumulator `i`. -/
def Core.ar (c : Core) (i : Nat) : Accum := c.acc.getD i (Accum.clear false)

/-- Accumulator `i` set. -/
def Core.setA (c : Core) (i : Nat) (a : Accum) : Core := { c with acc := c.acc.put i a }

/-! ### Saved context (R253) -/

/-- The number of bytes of a value, from a list of numbers of that width. -/
def packBytes (k : Nat) (l : List Nat) : List Byte := l.flatMap (leBytes k)

/-- The 6 bytes of a lane; the mode bit rides in lane 0. -/
def laneBits (l : Lane) (mode : Bool) : Nat :=
  unsigned 40 l.v + unsigned 4 l.ledger * 2 ^ 40 + bnat l.lost * 2 ^ 44 + bnat mode * 2 ^ 47

/-- The 2,048 bytes of context that resume at bundle `c.pc`. -/
def Core.context (c : Core) : List Byte :=
  let accs := (List.range 8).flatMap (fun i =>
    (List.range 8).map (fun k => laneBits (((c.ar i).lanes[k]?).getD Lane.zero) (k == 0 && (c.ar i).paired)))
  let loops := (List.range 4).map (fun i => match c.loops[i]? with
    | some l => l.first % 4096 + l.last % 4096 * 2 ^ 12 + l.c % 4 * 2 ^ 24 + 2 ^ 26
    | none => 0)
  packBytes 8 ((c.pc % 4096) :: (List.range 31).map (fun i => (c.gr (i + 1)).toNat)) ++
    packBytes 16 ((List.range 64).map (fun i => (c.wr i).toNat)) ++ packBytes 6 accs ++
    packBytes 8 ((List.range 8).map (fun i => (c.pr i).toNat) ++ (List.range 8).map (fun i => (c.mr i).toNat) ++
      (List.range 4).map (fun i => (c.cr i).toNat) ++ loops) ++ List.replicate 192 0

/-- The number in `k` bytes at offset `o`. -/
def numAt (b : List Byte) (o k : Nat) : Nat := leNat ((b.drop o).take k)

/-- A lane from its 6 bytes. -/
def laneOf (n : Nat) : Lane := ⟨signed 40 n, signed 4 (n / 2 ^ 40), n.testBit 44⟩

/-- A core restored from saved context. -/
def Core.restore (c : Core) (b : List Byte) : Core :=
  let put64 (m : SMap Reg64) (i o : Nat) : SMap Reg64 := m.put i (BitVec.ofNat 64 (numAt b o 8))
  { c with
    pc := numAt b 0 8 % 4096
    g := (List.range 31).foldl (fun m i => put64 m (i + 1) (8 * (i + 1))) []
    w := (List.range 64).foldl (fun m i => SMap.put m i (BitVec.ofNat 128 (numAt b (256 + 16 * i) 16))) []
    acc := (List.range 8).foldl (fun m i => SMap.put m i
      (⟨(numAt b (1280 + 48 * i) 6).testBit 47, (List.range 8).map (fun k => laneOf (numAt b (1280 + 48 * i + 6 * k) 6))⟩ : Accum)) []
    p := (List.range 8).foldl (fun m i => put64 m i (1664 + 8 * i)) []
    m := (List.range 8).foldl (fun m i => put64 m i (1728 + 8 * i)) []
    c := (List.range 4).foldl (fun m i => put64 m i (1792 + 8 * i)) []
    loops := (List.range 4).filterMap (fun i =>
      let n := numAt b (1824 + 8 * i) 8
      if n.testBit 26 then some ⟨n % 4096, n / 2 ^ 12 % 4096, n / 2 ^ 24 % 4⟩ else none) }

/-! ### Memories (R230, R231, R255) -/

/-- Where an address of a core lies. -/
inductive Target where
  | dram (pa : Nat)
  | stn (no : Nat)       -- number in State.stnMem
  | ctl (off : Nat)      -- offset in the control SRAM
  | window (a : Nat)     -- the control window
  | both (k : Nat) (a b : Target)   -- k bytes in one target, the rest in another: an access that crosses a page
  deriving DecidableEq, Repr

/-- First address of core and station memories. -/
def stnWindow : Nat := 0xFE0000000000

/-- First address of the control window (00 R8). -/
def ctlWindow : Nat := 0xFF0000000000

/-- Target of `n` bytes at an address of a signal core (R230). -/
def signalTarget (core a n : Nat) : Option Target :=
  let phys := core / 4
  if inDram a n then some (.dram a)
  else if stnWindow ≤ a ∧ a + n ≤ stnWindow + 0x20000 then some (.stn (phys * 2 ^ 28 + 0x2000000 + core % 4 * 0x20000 + (a - stnWindow)))
  else if stnWindow + 0x100000 ≤ a ∧ a + n ≤ stnWindow + 0x300000 then some (.stn (phys * 2 ^ 28 + (a - stnWindow)))
  else none

/-- Target of `n` bytes at a physical address of a control core: DRAM, the control SRAM (log 64) and, in supervisor mode,
the control window (R255). -/
def controlTarget (super : Bool) (a n : Nat) : Option Target :=
  if inDram a n then some (.dram a)
  else if stnWindow ≤ a ∧ a + n ≤ stnWindow + 0x2000000 then some (.ctl (a - stnWindow))
  else if super ∧ ctlWindow ≤ a ∧ a + n ≤ ctlWindow + 0x1000000000 then some (.window a)
  else none

/-- Bytes read from a target of memory; the control window is read by register access. -/
def State.readTarget (s : State) (n : Nat) : Target → List Byte
  | .dram a => s.rd a n
  | .stn a => Mem.gets dflt s.stnMem a n
  | .ctl a => Mem.gets dflt s.ctlMem a n
  | .window _ => List.replicate n 0
  | .both k a b => s.readTarget k a ++ s.readTarget (n - k) b

/-- Bytes written to a target of memory. -/
def State.writeTarget (s : State) (b : List Byte) : Target → State
  | .dram a => (s.wr a b).noticeWrite a b.length
  | .stn a => { s with stnMem := Mem.sets dflt s.stnMem a b }
  | .ctl a => { s with ctlMem := Mem.sets dflt s.ctlMem a b }
  | .window _ => s
  | .both k x y => (s.writeTarget (b.take k) x).writeTarget (b.drop k) y

/-! ### Translation (R255) -/

/-- The kind of access that a page must allow. -/
inductive PageUse where
  | read | write | exec
  deriving DecidableEq, Repr

/-- Does a leaf entry allow an access? -/
def pageAllows (e : Nat) (k : PageUse) (super : Bool) : Bool :=
  (super || e.testBit 4) && match k with
    | .read => e.testBit 1
    | .write => e.testBit 2
    | .exec => e.testBit 3

/-- 4 KiB pages that a leaf of a level covers. -/
def pagesAt (level : Nat) : Nat := 512 ^ (3 - level)

/-- One walk from the table at a physical page: the leaf and its level. -/
def State.walkPage (s : State) (va : Nat) : Nat → Nat → Nat → Option (Nat × Nat)
  | 0, _, _ => none
  | k + 1, level, table =>
    let a := table * 4096 + va / 2 ^ (39 - 9 * level) % 512 * 8
    match controlTarget false a 8 with
    | none => none
    | some t =>
      let e := leNat (s.readTarget 8 t)
      if e.testBit 0 = false then none
      else if e / 2 % 8 ≠ 0 then (if level = 0 then none else some (e, level))
      else State.walkPage s va k (level + 1) (e / 2 ^ 12 % 2 ^ 36)

/-- The translation a core holds for an address. -/
def Core.held? (c : Core) (va : Nat) : Option Tlb :=
  c.tlb.find? (fun t => (bit t.entry 5 || t.asid == fld c.ptbr 63 48) && decide (t.vpage ≤ va / 4096 ∧ va / 4096 < t.vpage + t.pages))

/-- The physical address behind a translation. -/
def Tlb.phys (t : Tlb) (va : Nat) : Nat := (fld t.entry 47 12 / t.pages * t.pages + (va / 4096 - t.vpage)) * 4096 + va % 4096

/-- Translation of a virtual address for control core `n` (R255): the physical address, or a page fault; a walk's result is
held. In supervisor mode with no root table an address is physical (log 65). -/
def State.translate (s : State) (n va : Nat) (k : PageUse) : Option Nat × State :=
  let c := s.core n
  let super := bit c.psr 0
  if super && fld c.ptbr 47 12 == 0 then (some va, s)
  else if super && decide (ctlWindow ≤ va ∧ va < ctlWindow + 0x1000000000) then (some va, s)
  else if va ≥ 2 ^ 48 then (none, s)
  else
    match c.held? va with
    | some t => (if pageAllows t.entry.toNat k super then some (t.phys va) else none, s)
    | none =>
      match s.walkPage va 4 0 (fld c.ptbr 47 12) with
      | none => (none, s)
      | some (e, level) =>
        let t : Tlb := ⟨fld c.ptbr 63 48, va / 4096 / pagesAt level * pagesAt level, pagesAt level, BitVec.ofNat 64 e⟩
        let s := s.setCore n { c with tlb := t :: c.tlb }
        (if pageAllows e k super then some (t.phys va) else none, s)

/-- TLBINV (R254, R255). -/
def Core.tlbInv (c : Core) (a : Nat) : Core :=
  if a = 0 then { c with tlb := c.tlb.filter (fun t => bit t.entry 5) }
  else { c with tlb := c.tlb.filter (fun t => !decide (t.vpage ≤ a / 4096 ∧ a / 4096 < t.vpage + t.pages)) }

/-! ### Tasks on signal cores (10 R265, R267; R252, R253) -/

/-- The logical number of a signal core: 4 * logical station + k. -/
def State.logicalCore (s : State) (n : Nat) : Option Nat := (s.logOf (n / 4)).map (fun l => 4 * l + n % 4)

/-- The account of a core's task. -/
def State.taskAccount (s : State) (n : Nat) : Option Nat :=
  ((s.core n).task.bind (fun r => s.dis.tasks.find? (fun t => t.record == r))).map (·.account)

/-- The slot task of core `n` starts (R253; 10 R265). -/
def State.startTask (s : State) (n lc : Nat) (t : Task) : State :=
  let w2 := s.word (t.record + 32)
  let saved := bit w2 123
  let s := s.setPlace t.record (.running lc)
  let s := s.setWord (t.record + 32) (putFld (putFld (putFld (putFld w2 127 124 3) 123 123 0) 122 116 (lc / 4)) 115 114 (lc % 4))
  let old := s.core n
  let base := { Core.cold with ops := old.ops, posted := old.posted, ticket := old.ticket, moves := old.moves, held := false,
                               task := some t.record, started := true }
  if saved then ((s.setCore n (base.restore (s.rd (t.record + 512) 2048))).charge t.account 0 128).chargeBytes t.account 2048
  else
    let s := s.putWord (t.record + 48) 63 0 s.mtime
    let w0 := s.word t.record
    let c := (base.setG 1 (BitVec.ofNat 64 (fld (s.word (t.record + 16)) 127 64))).setG 2 (BitVec.ofNat 64 t.record)
    s.setCore n { c with pc := fld w0 45 34 }

/-- TASK_START on an idle core: its slot task, else the task the dispatcher then chooses for it (10 R267). -/
def State.taskStart (s : State) (n : Nat) : State :=
  match s.logicalCore n with
  | none => s
  | some lc =>
    if (s.runningOn lc).isSome ∨ s.get F.DIS_STN_STATE_state 0 (lc / 4) ≠ 0 then s else
      match s.slotOf lc with
      | some t => s.startTask n lc t
      | none =>
        let s := s.fillSlot
        match s.slotOf lc with
        | some t => s.startTask n lc t
        | none => s

/-- A task leaves its core with a result for the dispatcher. -/
def State.leaveCore (s : State) (n : Nat) (result trap value : Nat) : State :=
  let c := s.core n
  match c.task with
  | none => s
  | some r =>
    let s := s.setCore n { c with task := none, started := false, wait := .no, syncing := false, replies := [] }
    { s with dis := { s.dis with ended := s.dis.ended ++ [⟨n, r, result, trap, c.pc, value⟩] } }

/-- The dispatcher ends a task that has left its core: word 2, counts, completion item (10 R265). -/
def State.endTask (s : State) (e : TaskEnd) : State :=
  let s := { s with dis := { s.dis with ended := dropFirst (· == e) s.dis.ended } }
  let s := s.dropTask e.record
  let w2 := s.word (e.record + 32)
  if e.result = 1 then
    let s := s.setWord (e.record + 32) (putFld (putFld (putFld w2 127 124 5) 113 106 e.trap) 105 94 e.faultAt)
    ((s.completion e.record 1).count F.DIS_CNT_faulted).put F.DIS_STATUS_fault_evt 1
  else
    (s.setWord (e.record + 32) (putFld (putFld w2 127 124 4) 63 32 e.value)).completion e.record 0

/-- TASK_END: the first task of a core that awaits its end. -/
def State.taskEnd (s : State) (n : Nat) : State :=
  match s.dis.ended.find? (fun e => e.core == n) with
  | some e => s.endTask e
  | none => s

/-- The budget trap (R252, R253; 10 R264): context saved, the task back in its ready list, 128 cycles and the context's flits and
DRAM units charged (10 R258). -/
def State.budgetTrap (s : State) (n : Nat) : State :=
  let c := s.core n
  match c.task with
  | none => s
  | some r =>
    let s := s.wr (r + 512) c.context
    let w2 := s.word (r + 32)
    let s := s.setWord (r + 32) (putFld (putFld (putFld w2 127 124 1) 123 123 1) 93 80 (satAdd 14 (fld w2 93 80) 1))
    let a := s.taskAccount n
    let s := (s.setCore n { c with task := none, started := false }).setPlace r .ready
    match a with
    | some a => (s.charge a 0 128).chargeBytes a 2048
    | none => s

/-- A fault trap of a signal core: the task ends as faulted, with record 0x0201 (R252; 16 R369). -/
def State.faultTrap (s : State) (n trap : Nat) : State :=
  let c := s.core n
  match c.task with
  | none => s
  | some r =>
    let w2 := putFld (putFld (putFld (s.word (r + 32)) 127 124 5) 113 106 trap) 105 94 c.pc
    let s := s.leaveCore n 1 trap 0
    s.logEv 0x0201 (0x100 + (s.logOf (n / 4)).getD 0) (n % 4) 4
      (snapOf (BitVec.ofNat 64 r) ++ snapOf (BitVec.ofNat 64 (fld w2 127 64)))

/-! ### Traps of control cores (R254) -/

/-- A bundle address as a register of the core holds it: a bundle index, or a byte address on a control core (log 66). -/
def bundleAddr (n pc : Nat) : Reg64 := if isControl n then BitVec.ofNat 64 (16 * pc) else BitVec.ofNat 64 pc

/-- The pc of a bundle address. -/
def pcOf (n : Nat) (v : Reg64) : Nat := if isControl n then v.toNat % 2 ^ 48 / 16 else v.toNat % 4096

/-- A trap or interrupt of a control core (R254). -/
def Core.enter (c : Core) (n cause at' : Nat) (tval : Option Nat) : Core :=
  let psr := putFld (putFld c.psr 2 2 (fld c.psr 0 0)) 3 3 (fld c.psr 1 1)
  { c with
    psr := putFld (putFld psr 0 0 1) 1 1 0
    epc := bundleAddr n at'
    cause := BitVec.ofNat 64 cause
    tval := match tval with
      | some a => BitVec.ofNat 64 a
      | none => c.tval
    pc := pcOf n c.tvec, wait := .no, syncing := false, sleep := false }

/-- ERET (R254). -/
def Core.eret (c : Core) (n : Nat) : Core :=
  { c with psr := putFld (putFld c.psr 0 0 (fld c.psr 2 2)) 1 1 (fld c.psr 3 3), pc := pcOf n c.epc }

/-- A trap before a bundle, by profile. -/
def State.trapBundle (s : State) (n trap : Nat) (tval : Option Nat) : State :=
  if isControl n then s.setCore n ((s.core n).enter n trap (s.core n).pc tval) else s.faultTrap n trap

/-- A core takes a presented interrupt: epc is the bundle it would run next (R254; 15 R356). -/
def State.takeInterrupt (s : State) (n : Nat) : State :=
  let c := s.core n
  s.setCore n { (c.enter n 16 c.pc none) with presented := none }

/-- Does a control core take interrupts: running, enabled, with a source presented? -/
def State.interruptible (s : State) (n : Nat) : Bool :=
  let c := s.core n
  isControl n && !c.held && bit c.psr 1 && (s.presentable (n - 1024)).isSome

/-- INTERRUPT_ENTRY: at a bundle boundary, a presented source (R254). -/
def State.interruptEntry (s : State) (n : Nat) : State :=
  let c := s.core n
  if s.interruptible n && c.presented.isSome && c.wait == .no && !c.syncing && !c.sleep then s.takeInterrupt n else s

/-- Does a pending source name a control core as its target (15 R362)? -/
def State.named (s : State) (n : Nat) : Bool :=
  s.enabledSources.any (fun k => s.get F.INC_SRC_target 0 k == n - 1024 && s.pendingSrc k)

/-- WAIT_WAKE: a sleeping control core resumes, or takes the presentable source (15 R362). -/
def State.waitWake (s : State) (n : Nat) : State :=
  let c := s.core n
  if isControl n && c.sleep && s.named n then
    let s := s.setCore n { c with sleep := false }
    if s.interruptible n && c.wait == .no && !c.syncing then s.takeInterrupt n else s
  else s

/-! ### Operations on queues and tasks (R247, R248) -/

/-- Where an operation goes: the home node of its queue, or the dispatcher. -/
def NetOp.dest : NetOp → Nat
  | .push q _ _ => homeNode q | .pop q => homeNode q | .mark q _ => homeNode q | .rewind q _ => homeNode q
  | .release q _ => homeNode q | .flush q => homeNode q
  | .tready _ => 32 | .tcancel _ => 32

/-- The queue of an operation that is no push. -/
def NetOp.readQueue : NetOp → Option Nat
  | .push _ _ _ => none | .pop q => some q | .mark q _ => some q | .rewind q _ => some q | .release q _ => some q
  | .flush q => some q | .tready _ => none | .tcancel _ => none

/-- May an operation of an agent act now? One of a core only as the core's oldest to its destination, and behind the words of its own
that wait for its queue (R247; 01 R26); what a core has not sent does not arrive. -/
def State.mayArrive (s : State) (who : Agent) (op : NetOp) : Bool :=
  match who with
  | .core n =>
    (s.core n).ops.find? (fun o => o.dest == op.dest) == some op &&
      !(s.qnode op.dest).waiting.any (fun e => e.1 == who && some e.2.1 == op.readQueue)
  | _ => true

/-- An operation of a core leaves its list: it has arrived. -/
def State.arrived (s : State) (n : Nat) (op : NetOp) : State :=
  let c := s.core n
  s.setCore n { c with ops := dropFirst (· == op) c.ops }

/-- A reply on its way back to a core whose operation arrived; other readers take no reply. -/
def State.answer (s : State) (who : Agent) (op : NetOp) (status : Reg64) (w : Option Word) : State :=
  match who with
  | .core n =>
    if (s.core n).ops.contains op then
      let s := s.arrived n op
      let c := s.core n
      s.setCore n { c with replies := c.replies ++ [(status, w)] }
    else s
  | _ => s

/-- Words of a core's pushes that have not been evaluated: still on their way, or waiting at a node. -/
def State.pushesOut (s : State) (n : Nat) : Nat :=
  let isPush : NetOp → Bool := fun
    | .push _ _ _ => true
    | _ => false
  ((s.core n).ops.filter isPush).length +
    (s.mem.qnodes.map (fun e => (e.2.waiting.filter (fun w => w.1 == .core n)).length)).foldl (· + ·) 0

/-- POSTED_ACK: an evaluated operation frees its place (R247). -/
def State.postedAck (s : State) (n : Nat) : State :=
  let c := s.core n
  if c.posted > s.pushesOut n then s.setCore n { c with posted := c.posted - 1 } else s

/-- The cycles that core `n` has waited for its bundle, two each nanosecond, charged to its task's account (R235; 10 R258). -/
def State.waited (s : State) (n : Nat) : State :=
  let c := s.core n
  let k := 2 * (s.upNs - c.since)
  let s := s.setCore n { c with cycle := c.cycle + k, since := s.upNs }
  match isControl n, s.taskAccount n with
  | false, some a => s.charge a 0 k
  | _, _ => s

/-- QUEUE_REPLY: the status, and the word of a pop, reach the waiting core (R248). -/
def State.queueReply (s : State) (n : Nat) : State :=
  match (s.core n).wait, (s.core n).replies with
  | .queue gd w, (v, x) :: rest =>
    let s := s.waited n
    let c := ({ s.core n with wait := .no, replies := rest } : Core).setG gd v
    s.setCore n (match w, x with
      | some i, some x => c.setW i x
      | _, _ => c)
  | _, _ => s

/-- The value a load leaves in its register: zero- or sign-extended in g; the upper bits of a short load to w are a free
value (R238; log 67). -/
def State.loaded (s : State) (n : Nat) (dst : DReg) (size : Nat) (sext : Bool) (b : List Byte) : State :=
  let v := leNat b
  let c := s.core n
  match dst with
  | .g i => s.setCore n (c.setG i (if sext then BitVec.ofInt 64 (signed (8 * size) v) else BitVec.ofNat 64 v))
  | .w i =>
    if size = 16 then s.setCore n (c.setW i (BitVec.ofNat 128 v)) else
      let (f, s) := s.fresh
      s.setCore n ((s.core n).setW i (BitVec.ofNat 128 (v + f * 2 ^ (8 * size))))

/-- DRAM_LOAD_REPLY: the waiting load, store or pop of a core completes (R231, R235). -/
def State.dramReply (s : State) (n : Nat) : State :=
  let c := s.core n
  match c.wait with
  | .load dst size sext a =>
    let s := (s.touch a).waited n
    let s := s.setCore n { s.core n with wait := .no }
    s.loaded n dst size sext (s.rd a size)
  | .store =>
    let s := s.waited n
    s.setCore n { s.core n with wait := .no }
  | _ => s.queueReply n

/-- Has everything that a SYNC waits for completed (R251)? -/
def State.syncDone (s : State) (n : Nat) : Bool :=
  let c := s.core n
  decide (c.posted = 0) && (c.moves.filter (fun m => m.wait.isNone)).isEmpty

/-- SYNC: the waiting core goes on. -/
def State.syncEnd (s : State) (n : Nat) : State :=
  let c := s.core n
  if c.syncing && s.syncDone n then
    let s := s.waited n
    s.setCore n { s.core n with syncing := false }
  else s

/-! ### The mover (R230, R249) -/

/-- Target of a tile as the mover of a core sees it. -/
def moverTarget (n a : Nat) : Option Target :=
  let phys := n / 4
  if isControl n then
    match controlTarget false a 512 with
    | some t => some t
    | none => none
  else if stnWindow + 0x1000000 ≤ a ∧ a + 512 ≤ stnWindow + 0x1040000 then some (.stn (phys * 2 ^ 28 + (a - stnWindow)))
  else if stnWindow + 0x2000000 ≤ a ∧ a + 512 ≤ stnWindow + 0x2080000 then some (.stn (phys * 2 ^ 28 + (a - stnWindow)))
  else signalTarget n a 512

/-- Are the addresses of a move legal: aligned, and every tile within the mover's ranges? -/
def moveLegal (n : Nat) (m : Move) : Bool :=
  let ok (a : Nat) : Bool := a % 512 == 0 && (List.range m.tiles).all (fun i => (moverTarget n (a + 512 * i)).isSome)
  ok m.src && ok m.dst

/-- A move of a descriptor (R249). -/
def newMove (n : Nat) (w : Word) (ticket : Nat) (wait : Option Nat) (account : Nat) : Move :=
  let m : Move := ⟨fld w 127 80, fld w 79 32, fld w 31 20 + 1, fld w 19 0, ticket, wait, account, 0, none⟩
  if moveLegal n m then m else { m with status := some 0x02 }

/-- The first move in progress set. -/
def State.setMove (s : State) (n : Nat) (m : Move) : State :=
  let c := s.core n
  s.setCore n { c with moves := m :: c.moves.drop 1 }

/-- One tile of a move: read and verified, then written with its checksum (R249). -/
def State.moveTile (s : State) (n : Nat) (m : Move) : State :=
  match moverTarget n (m.src + 512 * m.done), moverTarget n (m.dst + 512 * m.done) with
  | some a, some b =>
    let (s, bad) := match a with
      | .dram pa => if s.guarded pa then s.verifyBy (.mover n) .mover 1 pa else (s, [])
      | _ => (s, [])
    if bad.isEmpty = false then s.setMove n { m with status := some 0x01 } else
      let data := s.readTarget 512 a
      let s := match b with
        | .dram pa => (s.putTile pa data).noticeWrite pa 512
        | t => s.writeTarget data t
      let s := match isControl n, a with
        | false, .dram _ => s.chargeBytes m.account 512
        | _, _ => s
      let s := match isControl n, b with
        | false, .dram _ => s.chargeBytes m.account 512
        | _, _ => s
      let m := { m with done := m.done + 1 }
      s.setMove n (if m.done = m.tiles then { m with status := some 0x00 } else m)
  | _, _ => s.setMove n { m with status := some 0x02 }

/-- MOVE: the mover of a core copies the next tile of its oldest move, unless its account is known exhausted. -/
def State.moverStep (s : State) (n : Nat) : State :=
  match (s.core n).moves with
  | [] => s
  | m :: _ =>
    if m.status.isSome ∨ (isControl n = false ∧ s.knowsOut (.mover n) m.account) then s else s.moveTile n m

/-- Status and tiles done in the places of R249. -/
def Move.report (m : Move) (status : Nat) : Nat := status * 2 ^ 40 + m.done * 2 ^ 27

/-- MOVE_COMPLETE: the oldest move has ended; its status goes to gd, or as one word to done_q (R249). -/
def State.moveComplete (s : State) (n : Nat) : State :=
  let c := s.core n
  match c.moves with
  | [] => s
  | m :: rest =>
    match m.status with
    | none => s
    | some st =>
      let s := s.setCore n { c with moves := rest }
      match m.wait with
      | some gd =>
        if (s.core n).wait == .move gd then
          let s := s.waited n
          s.setCore n (({ s.core n with wait := .no } : Core).setG gd (BitVec.ofNat 64 (m.report st)))
        else s
      | none => s.pushItem (.mover n) m.doneQ [s.stampWord (BitVec.ofNat 128 (m.ticket % 65536 * 2 ^ 48 + m.report st))] false

/-! ### A halted station (10 R271, R272) -/

/-- A core of a halted station: its running task is void, its waiting operations are discarded, its moves end void. -/
def State.haltCore (s : State) (n : Nat) (t : Option Task) : State :=
  let c := s.core n
  let s := s.setCore n { Core.cold with
    ticket := c.ticket
    held := false
    moves := (c.moves.filter (fun m => m.wait.isNone)).map (fun m => { m with status := some (m.status.getD 0x03) }) }
  let s := match t with
    | some t => if s.dis.ended.any (fun e => e.record == t.record) then s else s.voidTask t
    | none => s
  (s.haltAgent (.core n)).haltAgent (.mover n)

end Sys2Proof.Machine
end

