-- ==== Sys2Proof/Machine/UnitOps.lean ====
section
/-! DEFINITION. Drain, halt and resume of units (10 R271, R272), and the gating of stations and codec cores (18 R418). -/
namespace Sys2Proof.Machine

/-- The signal cores of logical station n, by physical number, each with its logical number. -/
def State.stationCores (s : State) (n : Nat) : List (Nat × Nat) := (List.range 4).map (fun k => (4 * s.physOf n + k, 4 * n + k))

/-- Does a unit drain without having a state of its own for it? -/
def State.drains (s : State) (k : UnitKind) (i : Nat) : Bool := s.sys.draining.contains (k, i)

/-- A unit put on or taken off the list of draining units. -/
def State.setDraining (s : State) (k : UnitKind) (i : Nat) (on : Bool) : State :=
  let l := s.sys.draining.filter (fun e => e != (k, i))
  { s with sys := { s.sys with draining := if on then l ++ [(k, i)] else l } }

/-! ### Stations -/

/-- The slot tasks of a station displaced (10 R267). -/
def State.displaceStation (s : State) (n : Nat) : State :=
  s.displaceAll (fun t => match t.place with
    | .slot c => c / 4 == n
    | _ => false)

/-- A drain of a station. -/
def State.drainStation (s : State) (n : Nat) : State :=
  let st := s.get F.DIS_STN_STATE_state 0 n
  if st = 0 ∨ st = 4 then (s.put F.DIS_STN_STATE_state 1 0 n).displaceStation n else s

/-- A halt of a station: running tasks void, slot tasks displaced (10 R271). -/
def State.haltStation (s : State) (n : Nat) : State :=
  if s.get F.DIS_STN_STATE_state 0 n = 3 then s else
    let s := (s.put F.DIS_STN_STATE_state 3 0 n).displaceStation n
    let s := { s with sys := { s.sys with stnHalted := s.physOf n :: s.sys.stnHalted.filter (· != s.physOf n) } }
    (s.stationCores n).foldl (fun s c => s.haltCore c.1 (s.runningOn c.2)) s

/-- A resume of a station. -/
def State.resumeStation (s : State) (n : Nat) : State :=
  let st := s.get F.DIS_STN_STATE_state 0 n
  if st = 0 ∨ st = 4 then s else
    let s := s.put F.DIS_STN_STATE_state 0 0 n
    { s with sys := { s.sys with stnHalted := s.sys.stnHalted.filter (· != s.physOf n) } }

/-! ### Codec cores, composers, audio port nodes -/

/-- A halt of a composer: every frame in progress ends with result 2 (07 R199). -/
def State.haltComposer (s : State) (m : Nat) : State :=
  let s := s.haltAgent (.cmp m)
  let s := (s.cmp.canvases.filter (fun e => e.1 / 1024 == m)).foldl (fun s e => s.voidFrame m (e.1 % 1024)) s
  (s.put F.CMP_STATUS_state 3 m).setDraining .composer m false

/-- A halted audio port: input blocks in capture are discarded, output buffers in play returned, silence from its next frame on
(08 R224). -/
def State.haltAudioPort (s : State) (n p : Nat) : State :=
  let s := s.takeSamples n p
  let x := s.audPort n p
  let s := s.setAudPort n p { x with play := [], capture := [], line := [] }
  x.play.foldl (fun s b => match b.item with
    | some (w0, w1) => s.returnItem n w0 w1
    | none => s) s

/-- A halted network flow: what it had taken is returned. -/
def State.haltFlow (s : State) (n f : Nat) : State :=
  let x := s.audFlow n f
  let s := s.setAudFlow n f { x with blocks := [] }
  x.blocks.foldl (fun s k => s.returnItem n k.w0 k.w1) s

/-- A halt of an audio port node (08 R224). -/
def State.haltAudio (s : State) (n : Nat) : State :=
  let s := s.haltAgent (.aud n)
  let s := (List.range 8).foldl (fun s p => s.haltAudioPort n p) s
  let s := (List.range 16).foldl (fun s f => s.haltFlow n f) s
  ((s.put F.AUD_STATUS_state 3 n).setDraining .audio n false).alignPorts n

/-- A halt of a codec core (05 R146, 06 R175). -/
def State.haltCodec (s : State) (n : Nat) : State :=
  let s := s.haltVcc n
  (s.put F.VCC_STATUS_state 6 n).setDraining .codec n false

/-- The state field of a unit other than a station. -/
def State.unitState (s : State) (k : UnitKind) (i : Nat) : Nat :=
  match k with
  | .station => s.get F.DIS_STN_STATE_state 0 i
  | .codec => s.get F.VCC_STATUS_state i
  | .composer => s.get F.CMP_STATUS_state i
  | .audio => s.get F.AUD_STATUS_state i

/-- State values of drained and halted. -/
def drainedCode : UnitKind → Nat
  | .codec => 5
  | _ => 2

/-- A drain of a unit: no effect on a halted, draining or drained one (R271). -/
def State.drainUnit (s : State) (k : UnitKind) (i : Nat) : State :=
  match k with
  | .station => s.drainStation i
  | _ =>
    let d := drainedCode k
    if s.unitState k i = d ∨ s.unitState k i = d + 1 ∨ s.drains k i then s
    else
      let s : State := match k with
        | .composer => (s.cmp.canvases.filter (fun e => e.1 / 1024 == i)).foldl (fun s e => s.dropUnbegun i (e.1 % 1024)) s
        | _ => s
      s.setDraining k i true

/-- A halt of a unit: it overrides a drain (R271). -/
def State.haltUnit (s : State) (k : UnitKind) (i : Nat) : State :=
  if s.unitState k i = drainedCode k + 1 then s else
    match k with
    | .station => s.haltStation i
    | .codec => s.haltCodec i
    | .composer => s.haltComposer i
    | .audio => s.haltAudio i

/-- A resume of a unit: back to service from draining, drained or halted (R271). -/
def State.resumeUnit (s : State) (k : UnitKind) (i : Nat) : State :=
  let s1 := s.setDraining k i false
  let out := s.unitState k i == drainedCode k || s.unitState k i == drainedCode k + 1
  match k with
  | .station => s.resumeStation i
  | .codec => if out then (s1.put F.VCC_STATUS_state 0 i).showVcc i else s1
  | .composer => if out then s1.put F.CMP_STATUS_state (s.get F.CMP_CTRL_en i) i else s1
  | .audio => if out then (s1.put F.AUD_STATUS_state (s.get F.AUD_CTRL_en i) i).alignPorts i else s1

/-- Has the last work in progress of a draining unit completed (R271; 05 R145, 06 R175, 07 R199, 08 R224)? -/
def State.workDone (s : State) (k : UnitKind) (i : Nat) : Bool :=
  match k with
  | .station => (s.stationCores i).all (fun c => (s.runningOn c.2).isNone)
  | .codec => (s.vccOf i).cur.isNone && (s.vccOf i).susp.isEmpty && (s.vccOf i).gang.isNone
  | .composer => (s.cmp.canvases.filter (fun e => e.1 / 1024 == i)).all (fun e => e.2.comp.isNone && e.2.next.isEmpty)
  | .audio => (List.range 8).all (fun p => (s.audPort i p).capture.isEmpty && (s.audPort i p).play.all (fun b => b.item.isNone)) &&
      (List.range 16).all (fun f => (s.audFlow i f).blocks.isEmpty)

/-- UNIT_DRAINED: a draining unit whose last work has completed becomes drained. -/
def State.unitDrained (s : State) (k : UnitKind) (i : Nat) : State :=
  if s.workDone k i = false then s else
    match k with
    | .station => if s.get F.DIS_STN_STATE_state 0 i = 1 then s.put F.DIS_STN_STATE_state 2 0 i else s
    | .codec => if s.drains k i then (s.setDraining k i false).put F.VCC_STATUS_state 5 i else s
    | .composer => if s.drains k i then (s.setDraining k i false).put F.CMP_STATUS_state 2 i else s
    | .audio => if s.drains k i then ((s.setDraining k i false).put F.AUD_STATUS_state 2 i).alignPorts i else s

/-! ### DIS_UNIT_CMD (10 R271, R272, R274) -/

/-- The kind that a command word names. -/
def unitKind (n : Nat) : UnitKind := match n with | 0 => .station | 1 => .codec | 2 => .composer | _ => .audio

/-- How many units of a kind there are. -/
def unitCount : UnitKind → Nat
  | .station => 128 | .codec => 64 | .composer => 4 | .audio => 2

/-- The code of a kind in DIS_UNIT_CMD. -/
def kindCode : UnitKind → Nat
  | .station => 0 | .codec => 1 | .composer => 2 | .audio => 3

/-- Tiles whose write a halted unit had begun lose their checksums (R272). -/
def State.invalidate (s : State) (begun : List Nat) : State :=
  begun.foldl (fun s a => if s.guarded a then s.poison a else s) s

/-- The write of DIS_UNIT_CMD; `begun` are the tiles that a halted unit had begun to write. -/
def State.wrUnitCmd (s : State) (v : Reg64) (begun : List Nat) : State :=
  let op := fld v 63 62
  let k := unitKind (fld v 61 60)
  let i := fld v 6 0
  let s := s.put F.DIS_UNIT_STAT_ticket (fld v 59 52)
  if op = 0 ∨ i ≥ unitCount k then s.put F.DIS_UNIT_STAT_result 2 else
    let s := (s.put F.DIS_UNIT_STAT_result 1).bump F.DIS_UNIT_STAT_done
    if op = 1 then s.drainUnit k i
    else if op = 2 then (s.haltUnit k i).invalidate begun
    else s.resumeUnit k i

/-! ### Gating (18 R418) -/

/-- Is gating enabled for a unit, and has it been idle long enough? -/
def State.mayGate (s : State) (k : UnitKind) (i : Nat) : Bool :=
  let wait := max 1 (s.get F.PWR_GATE_CFG_gate_idle_us) * 1000
  match k with
  | .station =>
    bit (if i < 64 then s.reg .PWR_GATE_STN0 else s.reg .PWR_GATE_STN1) (i % 64) && s.get F.DIS_STN_STATE_state 0 i == 0 &&
      (List.range 4).all (fun c => (s.runningOn (4 * i + c)).isNone && (s.slotOf (4 * i + c)).isNone) &&
      decide (s.sys.idleAt.getD i 0 + wait ≤ s.upNs)
  | .codec =>
    bit (s.reg .PWR_GATE_VCC) i && s.get F.VCC_STATUS_state i == 0 && (s.vccOf i).cur.isNone && (s.vccOf i).susp.isEmpty &&
      !s.drains .codec i && decide ((s.vccOf i).idleAt + wait ≤ s.upNs) &&
      (List.range 4).all (fun j => !s.flag F.VCC_JOBQ_en i j || (s.headJob (s.get F.VCC_JOBQ_queue i j)).isNone)
  | _ => false

/-- POWER_GATE. -/
def State.powerGate (s : State) (k : UnitKind) (i : Nat) : State :=
  if i < unitCount k ∧ s.mayGate k i then
    match k with
    | .station => s.put F.DIS_STN_STATE_state 4 0 i
    | .codec => s.put F.VCC_STATUS_state 7 i
    | _ => s
  else s

/-- POWER_WAKE: a gated unit for which work is chosen wakes. -/
def State.powerWake (s : State) (k : UnitKind) (i : Nat) : State :=
  match k with
  | .station =>
    if s.get F.DIS_STN_STATE_state 0 i = 4 ∧ (List.range 4).any (fun c => (s.slotOf (4 * i + c)).isSome) then
      s.put F.DIS_STN_STATE_state 0 0 i
    else s
  | .codec =>
    if s.get F.VCC_STATUS_state i = 7 ∧
        (List.range 4).any (fun j => s.flag F.VCC_JOBQ_en i j && (s.headJob (s.get F.VCC_JOBQ_queue i j)).isSome) then
      (s.put F.VCC_STATUS_state 0 i).showVcc i
    else s
  | _ => s

end Sys2Proof.Machine
end

