-- ==== Sys2Proof/Machine/SystemOps.lean ====
section
/-! DEFINITION. Ownership and the lease (17), the station map (01), loads of stations and clusters, the datum sheet, resets
and boot, ALIVE, regulators, the power cap and thermal limits (18). -/
namespace Sys2Proof.Machine

/-! ### Masters, owner, lease (17 R383-R389) -/

/-- The code of a master (01 R33). -/
def Master.code : Master → Nat
  | .hif0 => 0x00 | .hif1 => 0x01 | .mgmt => 0x02 | .inband => 0x03 | .ctl n => 0x10 + n | .other => 0xFF

/-- Is a master a candidate master (R383)? -/
def candidate : Master → Bool
  | .ctl _ => false
  | .other => false
  | _ => true

/-- Is the device owned by a master? -/
def State.ownedBy (s : State) (m : Master) : Bool := candidate m && s.flag F.DEV_OWNER_owned && s.get F.DEV_OWNER_master == Master.code m

/-- Is the cluster of a control core delegated (R388)? -/
def State.delegated (s : State) (n : Nat) : Bool := (s.get F.DEV_DELEGATE_clusters).testBit (n / 4)

/-- Are a master's writes accepted: the owner's, or a delegated control core's (R387, R388)? -/
def State.mayWrite (s : State) : Master → Bool
  | .ctl n => s.delegated n
  | m => s.ownedBy m

/-- A dropped write counted (R387, R388); DEV_OWN_CNT has no field for the remaining source, debug access. -/
def State.dropWrite (s : State) : Master → State
  | .hif0 => s.count F.DEV_OWN_CNT_hif0
  | .hif1 => s.count F.DEV_OWN_CNT_hif1
  | .mgmt => s.count F.DEV_OWN_CNT_mgmt
  | .inband => s.count F.DEV_OWN_CNT_inband
  | .ctl _ => s.count F.DEV_OWN_CNT_ctl
  | .other => s

/-- The lease starts, with the period that DEV_OWNER shows (R385). -/
def State.startLease (s : State) : State :=
  let p := s.get F.DEV_OWNER_period_ms
  { s with sys := { s.sys with period := p, leaseEnd := s.upNs + p * 10 ^ 6 } }

/-- The handover cleared. -/
def State.clearHandover (s : State) : State := s.put F.DEV_HANDOVER_en 0

/-- A master becomes owner and its lease starts. -/
def State.becomeOwner (s : State) (m : Master) : State :=
  ((s.put F.DEV_OWNER_owned 1).put F.DEV_OWNER_master (Master.code m)).startLease

/-- The device becomes unowned (R385). -/
def State.disown (s : State) : State := (s.put F.DEV_OWNER_owned 0).clearHandover

/-- The lease period as it is taken: 10 to 10,000 ms. -/
def periodOf (v : Reg64) : Nat := clampNat (fld v 47 32) 10 10000

/-- The write of DEV_OWNER (R384, R385, R387, R388): whether it is accepted, and its effect. -/
def State.wrOwner (s : State) (m : Master) (v : Reg64) : Bool × State :=
  if candidate m = false then (false, s.dropWrite m)
  else if s.flag F.DEV_OWNER_owned = false then
    if bit v 0 then (true, (s.put F.DEV_OWNER_period_ms (periodOf v)).becomeOwner m) else (false, s.dropWrite m)
  else if s.ownedBy m = false ∨ bit v 0 then (false, s.dropWrite m)
  else
    let s := s.put F.DEV_OWNER_period_ms (periodOf v)
    (true, if bit v 1 then s.disown else s)

/-- Is a master the successor that the handover names (R386)? -/
def State.successor (s : State) (m : Master) : Bool :=
  candidate m && s.flag F.DEV_OWNER_owned && s.flag F.DEV_HANDOVER_en && s.get F.DEV_HANDOVER_successor == Master.code m

/-- The write of DEV_LEASE (R385, R386). -/
def State.wrLease (s : State) (m : Master) (v : Reg64) : Bool × State :=
  if s.ownedBy m then (true, if bit v 63 then s.startLease else s)
  else if s.successor m && bit v 63 then (true, (s.becomeOwner m).clearHandover)
  else (false, s.dropWrite m)

/-- The write of DEV_HANDOVER (R386; log 25). -/
def State.wrHandover (s : State) (m : Master) (v : Reg64) : Bool × State :=
  if s.ownedBy m = false then (false, s.dropWrite m)
  else if bit v 63 = false then (true, ((s.put F.DEV_HANDOVER_en 0).put F.DEV_HANDOVER_successor (fld v 7 0)).put F.DEV_HANDOVER_refused 0)
  else if fld v 7 0 > 3 ∨ fld v 7 0 = s.get F.DEV_OWNER_master then (true, s.put F.DEV_HANDOVER_refused 1)
  else (true, ((s.put F.DEV_HANDOVER_en 1).put F.DEV_HANDOVER_successor (fld v 7 0)).put F.DEV_HANDOVER_refused 0)

/-- The write of DEV_DELEGATE: the owner's alone (R388). -/
def State.wrDelegate (s : State) (m : Master) (v : Reg64) : Bool × State :=
  if s.ownedBy m then (true, s.put F.DEV_DELEGATE_clusters (fld v 3 0)) else (false, s.dropWrite m)

/-- DEV_LEASE as it reads: the time left, in whole µs. -/
def State.leaseView (s : State) : Reg64 :=
  if s.flag F.DEV_OWNER_owned then BitVec.ofNat 64 (min (2 ^ 32 - 1) ((s.sys.leaseEnd - s.upNs) / 1000)) else 0

/-- LEASE_LAPSE (R385). -/
def State.leaseLapse (s : State) : State :=
  if s.flag F.DEV_OWNER_owned ∧ s.sys.leaseEnd ≤ s.upNs then s.disown.logEv 0x0002 0x000 0 4 [] else s

/-! ### The station map (01 R31) -/

/-- The write of DEV_STN_MAP[n]. -/
def State.wrStnMap (s : State) (n : Nat) (v : Reg64) : State :=
  let p := fld v 7 0
  if p = s.physOf n then s.put F.DEV_STN_MAP_refused 0 0 n
  else
    let st := s.get F.DIS_STN_STATE_state 0 n
    let ok := (st == 2 || st == 3) && decide (p ≤ 135) && (s.logOf p).isNone && !s.sys.stnHalted.contains p && Config.selfTest p
    if ok then ((s.put F.DEV_STN_MAP_phys p 0 n).put F.DEV_STN_MAP_refused 0 0 n) else s.put F.DEV_STN_MAP_refused 1 0 n

/-! ### Station loads (17 R393) -/

/-- Bytes of a load target and its place in State.stnMem. -/
def loadTarget (phys t : Nat) : Nat × Nat :=
  if t < 4 then (0x10000, phys * 2 ^ 28 + 0x1000000 + t * 0x10000)
  else if t < 8 then (0x20000, phys * 2 ^ 28 + 0x2000000 + (t - 4) * 0x20000)
  else (0x200000, phys * 2 ^ 28 + 0x100000)

/-- A load reported. -/
def State.loadReport (s : State) (n ticket result : Nat) : State := (s.put F.STN_LOAD_STAT_ticket ticket n).put F.STN_LOAD_STAT_result result n

/-- Is every tile of a range backed? -/
def State.backed (s : State) (a n : Nat) : Bool := (List.range (ceilDiv n 512)).all (fun i => (s.tilePlace (a + 512 * i)).isSome)

/-- The write of STN_LOAD_CMD in the block of logical station n. -/
def State.wrStnLoad (s : State) (n : Nat) (v : Reg64) : State :=
  let st := s.get F.DIS_STN_STATE_state 0 n
  let t := fld v 51 48
  let src := fld v 47 0
  if !(st == 2 || st == 3) || (s.sys.loads.get? n).isSome || fld v 63 60 != 1 || decide (t > 8) then s.loadReport n (fld v 59 52) 2
  else if src % 512 != 0 || !s.backed src (loadTarget 0 t).1 then s.loadReport n (fld v 59 52) 4
  else { s with sys := { s.sys with loads := s.sys.loads.put n ⟨1, fld v 59 52, t, src, s.physOf n, none⟩ } }

/-- `n` bytes that the spec leaves open (log 4). -/
def State.openBytes (s : State) (n : Nat) : List Byte × State :=
  ((List.range n).map (fun i => BitVec.ofNat 8 (Config.freeValue (s.free + i))), { s with free := s.free + n })

/-- STN_LOAD_COMPLETE: the target is written whole; after a checksum failure its contents are open. -/
def State.stnLoadDone (s : State) (n : Nat) : State :=
  match s.sys.loads.get? n with
  | none => s
  | some c =>
    let s := { s with sys := { s.sys with loads := s.sys.loads.del n } }
    let (size, no) := loadTarget c.c c.a
    let guardedTiles := (List.range (size / 512)).filter (fun i => s.guarded (c.b + 512 * i))
    let (s, bad) := guardedTiles.foldl (fun (r : State × Nat) i =>
      let (s, l) := r.1.verifyBy (.mover (4 * c.c)) .mover 1 (c.b + 512 * i)
      (s, r.2 + l.length)) (s, 0)
    if bad = 0 then
      ({ s with stnMem := Mem.sets dflt s.stnMem no (s.rd c.b size) }).loadReport n c.ticket 1
    else
      let (b, s) := s.openBytes size
      ({ s with stnMem := Mem.sets dflt s.stnMem no b }).loadReport n c.ticket 3

/-! ### Images and clusters (17 R398; 18 R408, R409) -/

/-- Where an image lies. -/
inductive ImageSrc where
  | flash (cs off : Nat)
  | dram (a : Nat)
  deriving DecidableEq, Repr

/-- `n` bytes of an image from an offset. -/
def State.imageBytes (s : State) (off n : Nat) : ImageSrc → List Byte
  | .flash cs o => Mem.gets erased s.flash (cs * 2 ^ 32 + o + off) n
  | .dram a => s.rd (a + off) n

/-- Is a header well formed (18 R409)? -/
def headerOk (h : List Byte) : Bool :=
  numAt h 0 4 == 0x4C42494D && numAt h 4 4 == 1 && numAt h 12 4 % 512 == 0 && decide (numAt h 12 4 ≤ 0x800000) &&
    (h.drop 216).all (· == 0)

/-- Does an image verify (18 R408)? -/
def State.imageOk (s : State) (src : ImageSrc) : Bool :=
  let h := s.imageBytes 0 512 src
  let key := (h.drop 24).take 96
  let pay := s.imageBytes 512 (numAt h 12 4) src
  headerOk h && Config.sha384 key == Config.fuseHash && Config.ecdsaOk key (Config.sha384 (h.take 120 ++ pay)) ((h.drop 120).take 96)

/-! ### Interfaces as they stand in reset (18 R412) -/

/-- Lanes idle, so links down; ALIVE, PPS_OUT and FRAME_OUT low. -/
def State.lanesDown (s : State) : State :=
  let s := (s.written .LNK_PORT_CFG).foldl (fun (s : State) e => if s.flag F.LNK_PORT_STAT_link e.1 e.2.1 then s.linkDown e.1 e.2.1 else s) s
  { s with sys := { s.sys with aliveOn := false, alive := false }, mtb := { s.mtb with ppsOut := false, frameOut := [] } }

/-- All interfaces, the host links with them. -/
def State.interfacesDown (s : State) : State :=
  let s := ([16, 17] : List Nat).foldl (fun (s : State) t => s.resetTarget t) s.lanesDown
  { s with sys := { s.sys with pcie := [false, false] } }

/-- A cluster's state set. -/
def State.setCluster (s : State) (k : Nat) (c : Cluster) : State := { s with sys := { s.sys with clusters := s.sys.clusters.put k c } }

/-- A verified image written to a cluster's 8 MiB share. -/
def State.placeImage (s : State) (k : Nat) (src : ImageSrc) : State :=
  let h := s.imageBytes 0 512 src
  let pay := s.imageBytes 512 (numAt h 12 4) src
  let s := { s with ctlMem := Mem.sets dflt s.ctlMem (k * 0x800000) pay }
  (s.setCluster k { s.cluster k with image := true, entry := numAt h 16 8 }).put F.CTL_STAT_image_ver (numAt h 8 4) k

/-- The cores of a cluster released at the image's entry point, in supervisor mode (log 69). -/
def State.runCores (s : State) (k : Nat) : State :=
  let s := s.setCluster k { s.cluster k with held := false }
  let pc := (stnWindow + k * 0x800000) / 16 + (s.cluster k).entry
  (List.range 4).foldl (fun s i => s.setCore (1024 + 4 * k + i) { Core.cold with held := false, started := true, psr := 1, pc := pc }) s

/-- The engines that a cluster's cores hold are released (14 R342). -/
def State.freeCluster (s : State) (k : Nat) : State :=
  (List.range 96).foldl (fun s e =>
    if s.get F.SEC_LOCK_kind 0 e = 3 ∧ s.get F.SEC_LOCK_holder 0 e / 4 = k ∧ e % 6 > 3 then s.freeLock e else s) s

/-- A cluster's cores reset and held: interrupt claims emptied, locks released (R398). -/
def State.holdCluster (s : State) (k : Nat) : State :=
  let s := s.setCluster k { s.cluster k with held := true }
  let s := (List.range 4).foldl (fun s i => (s.setCore (1024 + 4 * k + i) Core.cold).resetTarget (4 * k + i)) s
  let s := s.freeCluster k
  if s.dark then s.lanesDown else s

/-- A cluster command reported. -/
def State.ctlReport (s : State) (k ticket result : Nat) : State := (s.put F.CTL_STAT_ticket ticket k).put F.CTL_STAT_result result k

/-- Is an image's address good: 512-aligned, and backed where it lies in DRAM? -/
def State.imageAddr (s : State) (src : ImageSrc) : Bool :=
  match src with
  | .flash _ o => decide (o % 512 = 0 ∧ o + 512 ≤ 2 ^ 32)
  | .dram a => a % 512 == 0 && s.backed a 512 && s.backed (a + 512) (min 0x800000 (numAt (s.rd a 512) 12 4))

/-- The image that a CTL_CMD word names. -/
def imageOf (v : Reg64) : ImageSrc := if bit v 50 then .dram (fld v 47 0) else .flash (fld v 49 49) (fld v 47 0)

/-- May a master command cluster k: the owner, or a control core of another cluster (R398)? -/
def mayCommand (k : Nat) : Master → Bool
  | .ctl n => n / 4 != k
  | _ => true

/-- The write of CTL_CMD of cluster k. -/
def State.wrCtlCmd (s : State) (m : Master) (k : Nat) (v : Reg64) : State :=
  let c := s.cluster k
  let t := fld v 59 52
  let others := (List.range 4).any (fun j => j != k && !(s.cluster j).held)
  if mayCommand k m = false ∨ c.load.isSome then s.ctlReport k t 2
  else match fld v 63 60 with
    | 1 => if others || bit v 51 then (s.holdCluster k).ctlReport k t 1 else s.ctlReport k t 2
    | 2 =>
      if c.held = false then s.ctlReport k t 2
      else if s.imageAddr (imageOf v) = false then s.ctlReport k t 4
      else (s.setCluster k { c with load := some ⟨2, t, bnat (bit v 50), fld v 49 49, fld v 47 0, none⟩ }).ctlReport k t 0
    | 3 => if c.held && c.image then (s.runCores k).ctlReport k t 1 else s.ctlReport k t 2
    | _ => s.ctlReport k t 2

/-- CLUSTER_LOAD_COMPLETE: the image is written, or record 0x0601 is (R398). -/
def State.clusterLoaded (s : State) (k : Nat) : State :=
  let c := s.cluster k
  match c.load with
  | none => s
  | some q =>
    let src := if q.a = 1 then ImageSrc.dram q.c else ImageSrc.flash q.b q.c
    let s := s.setCluster k { c with load := none }
    if s.imageOk src then (s.placeImage k src).ctlReport k q.ticket 1
    else (s.ctlReport k q.ticket 3).logEv 0x0601 (0x180 + k) 0 6 []

/-- CTL_STAT as it reads: held, loading or running. DESIGN CHOICE (log 90): 17 R404 gives state reset 0 and 18 R408 keeps clusters
held; the cluster's own state is shown. -/
def State.ctlStatView (s : State) (k : Nat) : Reg64 :=
  let c := s.cluster k
  putFld (s.reg .CTL_STAT k) 63 61 (if c.load.isSome then 2 else if c.held then 1 else 0)

/-! ### Boot (18 R408) -/

/-- A header's version, where it can be read. -/
def State.bootVersion (s : State) (cs : Nat) : Option Nat :=
  let h := s.imageBytes 0 512 (.flash cs 0)
  if numAt h 0 4 = 0x4C42494D ∧ numAt h 4 4 = 1 then some (numAt h 8 4) else none

/-- The chip select tried first. -/
def State.bootFirst (s : State) : Nat :=
  match s.bootVersion 0, s.bootVersion 1 with
  | some a, some b => if b > a then 1 else 0
  | _, _ => 0

/-- BOOT_IMAGE_CHECK: the next image of the boot verified, and cluster 0 run, or the other image left to try. -/
def State.bootCheck (s : State) : State :=
  if s.sys.bootDone ∨ s.sys.porst ∨ s.sys.sysrst then s else
    let first := s.bootFirst
    let cs := if s.sys.bootTried = 0 then first else 1 - first
    if s.imageOk (.flash cs 0) then
      let s := { s with sys := { s.sys with bootDone := true } }
      let s := ((s.placeImage 0 (.flash cs 0)).runCores 0).put F.PWR_BOOT_STAT_result (1 + cs)
      s.put F.PWR_BOOT_STAT_image_ver (s.get F.CTL_STAT_image_ver 0)
    else if s.sys.bootTried = 0 then
      ({ s with sys := { s.sys with bootTried := 1 } }).logEv 0x0602 0x006 0 5 []
    else
      let s := (({ s with sys := { s.sys with bootDone := true, bootTried := 2 } }).put F.PWR_BOOT_STAT_result 3).logEv 0x0603 0x006 0 7 []
      if s.dark then s.lanesDown else s

/-! ### The datum sheet (17 R400-R402) -/

/-- The bytes of a copy of the datum store. -/
def State.sheetCopyBytes (s : State) (c : Nat) : List Byte := Mem.gets dflt s.sheets (c * 65536) 65536

/-- Is a sheet valid (R400)? -/
def sheetValid (b : List Byte) : Bool :=
  numAt b 0 4 == 0x4C445331 && numAt b 4 2 == 1 && numAt b 8 4 == 65536 && numAt b 65532 4 == crc32c (b.take 65532)

/-- The copy in force: the valid one with the greater seq (R402); none without a valid copy. -/
def State.sheetInForce (s : State) : Option Nat :=
  let b0 := s.sheetCopyBytes 0
  let b1 := s.sheetCopyBytes 1
  match sheetValid b0, sheetValid b1 with
  | true, true => some (if numAt b1 12 4 > numAt b0 12 4 then 1 else 0)
  | true, false => some 0
  | false, true => some 1
  | false, false => none

/-- The present sheet: the copy in use. -/
def State.presentSheet (s : State) : List Byte := s.sheetCopyBytes s.sys.sheetCopy

/-- Sensor trims of a sheet. -/
def sheetTrims (b : List Byte) : List Nat := (List.range 64).map (fun i => numAt b (256 + 4 * i) 4)

/-- The datum sheet is read at start-up (R401): oscillator trim, asymmetries and sensor trims, or the defaults and record
0x0501. -/
def State.startUp (s : State) : State :=
  match s.sheetInForce with
  | some c =>
    let b := s.sheetCopyBytes c
    let s := (List.range 512).foldl (fun s i => s.setReg .MTB_ASYM (BitVec.ofNat 64 (numAt b (16896 + 8 * i) 8)) 0 i) s
    let s := ((s.put F.PWR_DATUM_STAT_valid 1).put F.PWR_DATUM_STAT_factory (numAt b 6 2 % 2)).put F.PWR_DATUM_STAT_defaults 0
    { s with mtb := Meridian.start (signed 40 (numAt b 16 5)) s.mtb.oscPresent,
             sys := { s.sys with sheetCopy := c, trims := sheetTrims b, started := true } }
  | none =>
    let s := (List.range 512).foldl (fun s i => s.setReg .MTB_ASYM (Config.defaultAsym i) 0 i) s
    let s := ((s.put F.PWR_DATUM_STAT_valid 0).put F.PWR_DATUM_STAT_factory 0).put F.PWR_DATUM_STAT_defaults 1
    ({ s with mtb := Meridian.start (signed 40 Config.defaultTrim) s.mtb.oscPresent,
              sys := { s.sys with trims := [], started := true } }).logEv 0x0501 0x005 0 5 []

/-- A datum command reported. -/
def State.datumReport (s : State) (ticket result : Nat) : State :=
  (s.put F.PWR_DATUM_STAT_ticket ticket).put F.PWR_DATUM_STAT_result result

/-- Is a datum buffer's address good: 512-aligned, outside guarded regions, backed? -/
def State.datumAddr (s : State) (a : Nat) : Bool :=
  a % 512 == 0 && s.backed a 65536 && (List.range 128).all (fun i => !s.guarded (a + 512 * i))

/-- The write of PWR_DATUM_CMD (R401, R402). -/
def State.wrDatumCmd (s : State) (v : Reg64) : State :=
  let t := fld v 59 52
  let a := fld v 47 0
  let op := fld v 63 60
  if op < 1 ∨ op > 3 then s
  else if s.sys.datum.isSome then s.datumReport t 2
  else if op = 3 then
    let trims := if sheetValid s.presentSheet then sheetTrims s.presentSheet else s.sys.trims
    ({ s with sys := { s.sys with trims := trims } }).datumReport t 1
  else if s.datumAddr a = false then s.datumReport t 4
  else if op = 1 then (s.wr a s.presentSheet).datumReport t 1
  else
    let b := s.rd a 65536
    if !sheetValid b || numAt b 6 2 % 2 == 1 then s.datumReport t 3
    else { s with sys := { s.sys with datum := some ⟨2, t, a, 0, 0, none⟩ } }

/-- DATUM_WRITE_COMPLETE: the new sheet stands in the other copy, the old copy is erased, record 0x0502 (R402). -/
def State.datumWritten (s : State) : State :=
  match s.sys.datum with
  | none => s
  | some c =>
    let b := s.rd c.a 65536
    let seq := (numAt s.presentSheet 12 4 + 1) % 2 ^ 32
    let body := b.take 12 ++ leBytes 4 seq ++ (b.drop 16).take (65532 - 16)
    let new := body ++ leBytes 4 (crc32c body)
    let other := 1 - s.sys.sheetCopy
    let s := { s with sheets := Mem.sets dflt (s.sheets.filter (fun e => e.1 / 65536 != s.sys.sheetCopy)) (other * 65536) new,
                      sys := { s.sys with datum := none, sheetCopy := other } }
    let s := ((s.put F.PWR_DATUM_STAT_valid 1).put F.PWR_DATUM_STAT_factory 0).bump F.PWR_DATUM_STAT_writes
    (s.datumReport c.ticket 1).logEv 0x0502 0x005 0 5 []

/-! ### Resets (18 R406, R407, R411, R412) -/

/-- Registers whose value survives SYSRST_N (R407; 01 R33; 13 R334; 14 R352; 16 R374; 17 R404; R421). -/
def survives : RegName → Bool
  | .DEV_ACCESS_ERR => true | .DEV_ACCESS_LAST => true | .DEV_OWN_CNT => true
  | .MEM_CHAN_STAT => true | .MEM_BAND => true | .MEM_EXCL => true | .MEM_GUARD => true
  | .SEC_ALARM_STAT => true | .LOG_CNT => true | .LOG_FLASH => true | .PWR_BOOT_STAT => true
  | _ => false

/-- The register file that SYSRST_N leaves. -/
def State.keptRegs (s : State) : SMap Reg64 :=
  let kept := s.regs.filter (fun e => match locate e.1 with
    | some r => survives r.name
    | none => false)
  if s.flag F.PWR_STATUS_pwrfail then SMap.put kept (RegAddr.addr ⟨.PWR_STATUS, 0, 0⟩) (putFld (resetReg ⟨.PWR_STATUS, 0, 0⟩) 63 63 1) else kept

/-- Every channel in state `a` goes to state `b` (R407: self-refresh for the pulse). -/
def State.channelsTo (s : State) (a b : Nat) : State :=
  (List.range 256).foldl (fun s c =>
    if s.get F.MEM_CHAN_STAT_state (c / 8) (c % 8) = a then s.put F.MEM_CHAN_STAT_state b (c / 8) (c % 8) else s) s

/-- PORST_ASSERT: everything resets; flash, the datum store, what stands on the input lands and the model's own fields stay. -/
def State.porstDown (s : State) : State :=
  let r := State.reset
  { r with
    flash := s.flash, sheets := s.sheets
    mtb := { r.mtb with oscPresent := s.mtb.oscPresent }
    ports := Ports.start s.ports.refclk
    sec := { r.sec with epoch := s.sec.epoch + 1, conds := s.sec.conds }
    sys := { r.sys with porst := true, sysrst := s.sys.sysrst, sheetCopy := s.sys.sheetCopy }
    bus := s.bus, out := s.out, free := s.free, pending := s.pending }

/-- PORST_RELEASE: start-up begins: the sheet is read and training starts on every channel (R411). -/
def State.porstUp (s : State) : State :=
  if s.sys.porst ∨ s.sys.started = false then
    let s := ({ s with sys := { s.sys with porst := false } }).startUp
    (List.range 256).foldl (fun s c => s.put F.MEM_CHAN_STAT_state 1 (c / 8) (c % 8)) s
  else s

/-- The retraining in service on each memory node, which SYSRST_N leaves (R407); commands that wait are lost. -/
def State.keptTraining (s : State) : SMap (List Cmd) := s.mem.retrainQ.map (fun e => (e.1, e.2.filter (fun c => c.served.isSome)))

/-- SYSRST_ASSERT (R407); no further effect while PORST_N is low. -/
def State.sysrstDown (s : State) : State :=
  if s.sys.porst then { s with sys := { s.sys with sysrst := true } } else
    let r := State.reset
    let t : State := { r with
      regs := s.keptRegs
      dram := s.dram, stnMem := s.stnMem, ctlMem := s.ctlMem, flash := s.flash, sheets := s.sheets
      mtb := Meridian.start s.mtb.trim s.mtb.oscPresent
      mem := { Memory.start with bands := s.mem.bands, training := s.mem.training, retrainQ := s.keptTraining }
      ports := Ports.start s.ports.refclk
      sec := { r.sec with epoch := s.sec.epoch, gen := s.sec.gen, conds := s.sec.conds }
      log := { s.log with flush := none, flushReq := false, cmd := none, flushSec := 0 }
      sys := { r.sys with sysrst := true, sheetCopy := s.sys.sheetCopy, tripped := s.sys.tripped }
      bus := s.bus, out := s.out, free := s.free, pending := s.pending }
    t.channelsTo 0 2

/-- SYSRST_RELEASE: channels leave self-refresh and boot restarts (R407). -/
def State.sysrstUp (s : State) : State :=
  if s.sys.sysrst = false then s
  else if s.sys.porst then { s with sys := { s.sys with sysrst := false } }
  else (({ s with sys := { s.sys with sysrst := false } }).channelsTo 2 0).startUp

/-- PCIE_LINK_UP. -/
def State.pcieUp (s : State) (h : Nat) : State :=
  if s.inReset ∨ s.sys.tripped ∨ h > 1 then s else { s with sys := { s.sys with pcie := setAt s.sys.pcie h true } }

/-- TARGET_RESET: a held core's stack is emptied; a host link drops and its stack is emptied (15 R364). -/
def State.targetReset (s : State) (t : Nat) : State :=
  if t < 16 then (if (s.cluster (t / 4)).held then s.resetTarget t else s)
  else if t < 18 then ({ s with sys := { s.sys with pcie := setAt s.sys.pcie (t - 16) false } }).resetTarget t
  else s

/-! ### ALIVE and PWRFAIL_N (18 R413, R414) -/

/-- The write of PWR_ALIVE. -/
def State.wrAlive (s : State) (v : Reg64) : State :=
  let s := s.put F.PWR_ALIVE_alive_ms (fld v 15 0)
  if bit v 63 = false ∨ s.dark = true then s
  else if s.sys.aliveOn then { s with sys := { s.sys with kickAt := s.upNs } }
  else { s with sys := { s.sys with kickAt := s.upNs, aliveOn := true, aliveAt := s.upNs } }

/-- ALIVE_TOGGLE: every 500 µs while fed. -/
def State.aliveToggle (s : State) : State :=
  if s.sys.aliveOn ∧ s.sys.aliveAt + 500000 ≤ s.upNs then
    { s with sys := { s.sys with alive := !s.sys.alive, aliveAt := s.sys.aliveAt + 500000 } }
  else s

/-- ALIVE_EXPIRY: alive_ms without a kick. -/
def State.aliveExpiry (s : State) : State :=
  if s.sys.aliveOn ∧ s.sys.kickAt + max 1 (s.get F.PWR_ALIVE_alive_ms) * 10 ^ 6 ≤ s.upNs then
    (({ s with sys := { s.sys with aliveOn := false, alive := false } }).put F.PWR_STATUS_alive_lost 1).logEv 0x0508 0x005 0 6 []
  else s

/-- TWIN_ALIVE_EDGE. -/
def State.twinEdge (s : State) : State := ({ s with sys := { s.sys with twinAt := some s.upNs } }).put F.PWR_STATUS_twin_ok 1

/-- TWIN_ALIVE_TIMEOUT: 3 ms without an edge. -/
def State.twinTimeout (s : State) : State :=
  match s.sys.twinAt with
  | some t => if t + 3 * 10 ^ 6 ≤ s.upNs then s.put F.PWR_STATUS_twin_ok 0 else s
  | none => s.put F.PWR_STATUS_twin_ok 0

/-- PWRFAIL_FALL. -/
def State.pwrFail (s : State) : State := (s.put F.PWR_STATUS_pwrfail 1).powerFlush

/-! ### Regulators, AVS, the cap (18 R415-R417) -/

/-- One rail's answer to a poll. -/
def State.pollRail (s : State) (r : Nat) (a : Option (Nat × Nat)) : State :=
  if s.flag F.PWR_RAIL_en 0 r = false then s else
    match a with
    | some (v, i) =>
      let s := { s with sys := { s.sys with misses := s.sys.misses.del r } }
      (s.put F.PWR_RAIL_vout_mv v 0 r).put F.PWR_RAIL_iout_a i 0 r
    | none =>
      let n := s.sys.misses.getD r 0 + 1
      let s := { s with sys := { s.sys with misses := s.sys.misses.put r n } }
      if n = 3 then (s.put F.PWR_STATUS_reg_fault 1).logEv 0x0506 0x005 r 6 [] else s

/-- REGULATOR_POLL: READ_VOUT and READ_IOUT of each named regulator, rail by rail. -/
def State.pollRails (s : State) (answers : List (Option (Nat × Nat))) : State :=
  (List.range 8).foldl (fun s r => s.pollRail r ((answers[r]?).getD none)) s

/-- AVS_UPDATE: VDD_CORE moves toward the node's choice by at most 5 mV, from the end of boot. -/
def State.avsUpdate (s : State) (target : Nat) : State :=
  if s.sys.bootDone = false then s else
    let now := s.get F.PWR_MEAS_vcore_mv
    let want := clampNat target 650 800
    let mv := if want > now then min want (now + 5) else max want (now - 5)
    (s.put F.PWR_MEAS_vcore_mv mv).emit (.avs mv)

/-- The working cap: cap_w lowered by sixteenths under thermal warning (R419). -/
def State.workingCap (s : State) : Nat := let c := s.get F.PWR_CAP_cap_w; c - c * s.sys.capWork / 16

/-- The scale that an estimate leaves (R417). -/
def State.scaleAfter (s : State) (e : Nat) : Nat :=
  let k := s.get F.DIS_SCALE_scale
  let cap := s.workingCap
  if e > cap then max (s.get F.PWR_CAP_scale_min) (k * cap / e)
  else if 16 * e ≤ 15 * cap ∧ s.sys.firstEst then min 65536 (k + 2048)
  else k

/-- POWER_ESTIMATE. -/
def State.estimate (s : State) (e : Nat) : State :=
  let k := s.scaleAfter e
  let was := s.flag F.PWR_STATUS_capped
  let s := ((s.put F.PWR_MEAS_est_w e).put F.DIS_SCALE_scale k).put F.PWR_STATUS_capped (bnat (decide (k < 65536)))
  let s := { s with sys := { s.sys with firstEst := false } }
  if k < 65536 ∧ was = false then s.logEv 0x0503 0x005 0 4 [] else s

/-! ### Thermal limits (18 R419) -/

/-- THERMAL_WARN: the hottest sensor exceeds warn_c. -/
def State.thermalWarn (s : State) (hot : Nat) : State :=
  let s := s.put F.PWR_MEAS_hot_c hot
  if hot > s.get F.PWR_THERM_warn_c ∧ s.sys.warm = false then
    (({ s with sys := { s.sys with warm := true, capAt := s.upNs } }).put F.PWR_STATUS_therm_warn 1).logEv 0x0504 0x005 0 5 []
  else s

/-- THERMAL_CAP_STEP: a sixteenth less each millisecond, until the sensor is below warn_c - 5. -/
def State.thermalStep (s : State) (hot : Nat) : State :=
  let s := s.put F.PWR_MEAS_hot_c hot
  if s.sys.warm = false then s
  else if hot + 5 < s.get F.PWR_THERM_warn_c then { s with sys := { s.sys with warm := false, capWork := 0 } }
  else if s.sys.capAt + 10 ^ 6 ≤ s.upNs then
    { s with sys := { s.sys with capWork := min 16 (s.sys.capWork + 1), capAt := s.sys.capAt + 10 ^ 6 } }
  else s

/-- THERMTRIP: at 115 °C the interfaces go as under PORST_N low, with record 0x0505. -/
def State.thermTrip (s : State) (hot : Nat) : State :=
  let s := s.put F.PWR_MEAS_hot_c hot
  if hot < 115 ∨ s.sys.tripped then s
  else (({ s with sys := { s.sys with tripped := true } }).logEv 0x0505 0x005 0 7 []).interfacesDown

end Sys2Proof.Machine
end

