-- ==== Sys2Proof/Machine/Access.lean ====
section
/-! DEFINITION. A register access by a master: reach, address errors, ownership, the effect of a write on each register and
what a read of each register returns (00 R8-R14; 01 R33; 17 R383-R389). -/
namespace Sys2Proof.Machine

/-! ### Reach and errors (00 R10, R11; 18 R412) -/

/-- Does a master's access reach the device: a host over its PCIe link, debug access on DZ7128-N00 alone (00 R1), any other
master outside reset, MGMT not after a thermal trip either (18 R412, R419)? -/
def State.reaches (s : State) : Master → Bool
  | .hif0 => !s.inReset && (s.sys.pcie[0]?).getD false
  | .hif1 => !s.inReset && (s.sys.pcie[1]?).getD false
  | .other => !s.inReset && !Config.secured
  | .mgmt => !s.inReset && !s.sys.tripped
  | _ => !s.inReset

/-- The answer to an access. -/
def State.answerBus (s : State) (data : Reg64) (status : Nat) : State := { s with bus := ⟨data, status⟩ }

/-- An access that R10 or R11 turns away: counted, and shown in DEV_ACCESS_LAST (01 R33). -/
def State.accessErr (s : State) (m : Master) (write : Bool) (addr : Nat) : State :=
  let s := s.count F.DEV_ACCESS_ERR_count
  (s.setReg .DEV_ACCESS_LAST (putFld (putFld (putFld (0 : Reg64) 56 56 (bnat write)) 55 48 (Master.code m)) 47 0 addr)).answerBus 0 2

/-! ### What a write does to each register -/

/-- The write of a register by the access codes alone (00 R12). -/
def State.writeCoded (s : State) (r : RegAddr) (v : Reg64) : State :=
  s.setReg r.name (codedWrite r.name.info (s.reg r.name r.unit r.idx) v) r.unit r.idx

/-- A write of one field clamped to its range, after the coded write. -/
def State.writeClamped (s : State) (r : RegAddr) (v : Reg64) (f : RegField) (lo hi : Nat) : State :=
  (s.writeCoded r v).put f (clampNat (fld v f.hi f.lo) lo hi) r.unit r.idx

/-- An accepted write of a register of the DEV, MTB, DIS, INC, LOG, PWR, SEC, STN or CTL blocks. -/
def State.writeControl (s : State) (m : Master) (r : RegAddr) (v : Reg64) (begun : List Nat) : State :=
  let u := r.unit
  let i := r.idx
  match r.name with
  | .DEV_STN_MAP => s.wrStnMap i v
  | .STN_LOAD_CMD => s.wrStnLoad u v
  | .CTL_CMD => s.wrCtlCmd m u v
  | .PWR_DATUM_CMD => s.wrDatumCmd v
  | .MTB_CTRL => s.wrMtbCtrl v
  | .MTB_SET_NS => s.wrSetNs v
  | .MTB_SLEW_LIMIT => s.writeClamped r v F.MTB_SLEW_LIMIT_slew_ppb 100 100000
  | .MTB_VERNIER => s.wrVernier v
  | .MTB_PHASE_ADJ => s.wrPhaseAdj v
  | .MTB_RATE_LEARNED => s.wrRateLearned v
  | .MTB_PPS => s.wrPps v
  | .MTB_TRANSIT_LEAD => s.writeClamped r v F.MTB_TRANSIT_LEAD_lead_ns 3000 50000
  | .MTB_RASTER_RATE => s.wrRasterRate i v
  | .MTB_RASTER_GEOM => s.wrRasterOther .MTB_RASTER_GEOM i v
  | .MTB_RASTER_OFFSET => s.wrRasterOther .MTB_RASTER_OFFSET i v
  | .MTB_TRN_CTRL => s.wrTransit .MTB_TRN_CTRL i v
  | .MTB_TRN_WHEN => s.wrTransit .MTB_TRN_WHEN i v
  | .MTB_TRN_ACT => s.wrTransit .MTB_TRN_ACT i v
  | .DIS_UNIT_CMD => s.wrUnitCmd v begun
  | .DIS_LIST_CFG => s.wrListCfg i v
  | .INC_SRC => s.wrIntSrc i v
  | .INC_SW_SET => s.wrSwSet i v
  | .LOG_CMD => s.wrLogCmd v
  | .LOG_FLASH => s.wrLogFlash v
  | .PWR_CAP => s.writeClamped r v F.PWR_CAP_cap_w 300 1300
  | .PWR_ALIVE => s.wrAlive v
  | .PWR_THERM => s.writeClamped r v F.PWR_THERM_warn_c 60 110
  | .SEC_ALARM_EN => s.wrAlarmEn v
  | .SEC_ALARM_STAT => s.wrAlarmStat v
  | .SEC_KEY_BASE => s.wrKeyBase v
  | .SEC_KEY_CMD => s.wrKeyCmd v
  | .SEC_KEY_DATA => s.setReg .SEC_KEY_DATA v 0 i
  | _ => s.writeCoded r v

/-- An accepted write of a register of the LNK, MEM or VCC blocks. -/
def State.writeMedia (s : State) (r : RegAddr) (v : Reg64) : State :=
  let u := r.unit
  let i := r.idx
  match r.name with
  | .LNK_BUF_RET => s.bufRet u (fld v 47 0)
  | .LNK_EXC_QUEUE => s.wrExcQueue u i v
  | .LNK_KEY_BASE => s.wrFwdBase .LNK_KEY_BASE false v
  | .LNK_STREAM_BASE => s.wrFwdBase .LNK_STREAM_BASE false v
  | .LNK_CRYPTO_BASE => s.wrFwdBase .LNK_CRYPTO_BASE false v
  | .LNK_TMAP_BASE => s.wrFwdBase .LNK_TMAP_BASE false v
  | .LNK_LEG_BASE => s.wrFwdBase .LNK_LEG_BASE true v
  | .LNK_SUB_BASE => s.wrFwdBase .LNK_SUB_BASE true v
  | .LNK_REPL_BASE => s.wrFwdBase .LNK_REPL_BASE true v
  | .LNK_ROOM_BASE => s.wrFwdBase .LNK_ROOM_BASE true v
  | .LNK_FLOW_CMD => s.wrFlowCmd v
  | .LNK_STOP_CMD => s.wrStopCmd v
  | .LNK_POL_CFG0 => s.wrPolicer .LNK_POL_CFG0 u i v
  | .LNK_POL_CFG1 => s.wrPolicer .LNK_POL_CFG1 u i v
  | .LNK_EGR_CTRL => s.writeClamped r v F.LNK_EGR_CTRL_rtx_scan 1 4096
  | .LNK_SEL_CMD => s.wrSelCmd u v
  | .LNK_CLASS_SHP0 => s.wrClassShaper .LNK_CLASS_SHP0 u i v
  | .LNK_CLASS_SHP1 => s.wrClassShaper .LNK_CLASS_SHP1 u i v
  | .LNK_PKT_BASE => s.wrPktBase u v
  | .LNK_PKT_CMD => s.wrPktCmd u v
  | .LNK_PORT_CFG => s.wrPortCfg u i v
  | .LNK_PORT_GCTL => s.wrGctl u i v
  | .LNK_PORT_GBASE => s.wrGbase u i v
  | .LNK_GCL => s.wrGcl u i v
  | .LNK_MRG => s.wrMerge u i v
  | .MEM_TIMING => s.writeClamped r v F.MEM_TIMING_nbr_log2 9 15
  | .MEM_CHAN_CMD => s.wrChanCmd u v
  | .MEM_BAND => s.wrBand i v
  | .MEM_QDESC_BASE => s.wrQdescBase u v
  | .MEM_Q_CMD => s.wrQueueCmd u v
  | .VCC_CTRL => (s.writeCoded r v).showVcc u
  | .VCC_JOBQ => (s.writeCoded r v).showVcc u
  | .VCC_GANG => s.wrGang i v
  | .VCC_TAP_BASE => s.wrTapBase v
  | _ => s.writeCoded r v

/-- An accepted write of a register of the CMP or AUD blocks. -/
def State.writeOutput (s : State) (r : RegAddr) (v : Reg64) : State :=
  let u := r.unit
  let i := r.idx
  match r.name with
  | .CMP_CTRL => s.wrCmpCtrl u v
  | .CMP_COMMIT => s.commitRequest u (fld v 9 0)
  | .CMP_INS_CTRL => s.wrInset .CMP_INS_CTRL u i v
  | .CMP_INS_SRC => s.wrInset .CMP_INS_SRC u i v
  | .CMP_INS_SIZE => s.wrInset .CMP_INS_SIZE u i v
  | .CMP_INS_CROP => s.wrInset .CMP_INS_CROP u i v
  | .CMP_INS_DST => s.wrInset .CMP_INS_DST u i v
  | .CMP_INS_FENCE => s.wrInset .CMP_INS_FENCE u i v
  | .CMP_INS_TARGET => s.wrInset .CMP_INS_TARGET u i v
  | .AUD_CTRL => s.wrAudCtrl u v
  | .AUD_PORT_CFG => s.wrAudCfg u i v
  | .AUD_PORT_ROUTE => s.wrRoute u i v
  | .AUD_PORT_MASK => s.wrMask u i v
  | .AUD_TRIM => s.wrTrim u i v
  | .AUD_CS_TX => s.wrCsTx u i v
  | .AUD_NET_CFG => s.wrNetCfg u i v
  | _ => s.writeCoded r v

/-- An accepted write of a register. -/
def State.writeReg (s : State) (m : Master) (r : RegAddr) (v : Reg64) (begun : List Nat) : State :=
  match r.name.info.blk with
  | .LNK => s.writeMedia r v
  | .MEM => s.writeMedia r v
  | .VCC => s.writeMedia r v
  | .CMP => s.writeOutput r v
  | .AUD => s.writeOutput r v
  | _ => s.writeControl m r v begun

/-! ### Writes as a master makes them -/

/-- The write of INC_EOI[t]: its own master's always, any other master's by ownership and then an error (15 R359; log 70). -/
def State.wrEoi (s : State) (m : Master) (t : Nat) (v : Reg64) : Bool × State :=
  if m = ownMaster t then (true, s.eoiInt t (fld v 11 0))
  else if s.mayWrite m then (true, s.count F.INC_CNT_eoi_err)
  else (false, s.dropWrite m)

/-- A write to a register judged against ownership and delegation (17 R387-R389): whether it was accepted, and its effect. -/
def State.judgedWrite (s : State) (m : Master) (r : RegAddr) (v : Reg64) (begun : List Nat) : Bool × State :=
  match r.name with
  | .DEV_OWNER => s.wrOwner m v
  | .DEV_LEASE => s.wrLease m v
  | .DEV_HANDOVER => s.wrHandover m v
  | .DEV_DELEGATE => s.wrDelegate m v
  | .INC_EOI => s.wrEoi m r.idx v
  | _ => if s.mayWrite m then (true, s.writeReg m r v begun) else (false, s.dropWrite m)

/-- A naturally aligned 64-bit write at an address of the control window; `begun` serves DIS_UNIT_CMD alone. -/
def State.regWriteWith (s : State) (begun : List Nat) (m : Master) (addr : Nat) (v : Reg64) : State :=
  if s.reaches m = false then s.answerBus 0 3
  else match locate addr with
    | none => s.accessErr m true addr
    | some r =>
      let (ok, t) := s.judgedWrite m r v begun
      t.answerBus 0 (bnat (!ok))

/-- A naturally aligned 64-bit write at an address of the control window. -/
def State.regWrite (s : State) (m : Master) (addr : Nat) (v : Reg64) : State := s.regWriteWith [] m addr v

/-- A write to a register by name. -/
def State.writeTo (s : State) (m : Master) (n : RegName) (v : Reg64) (u : Nat := 0) (i : Nat := 0) : State :=
  s.regWrite m (RegAddr.addr ⟨n, u, i⟩) v

/-! ### What a read returns -/

/-- The value of a register that is computed when it is read, with its write-only and reserved bits zero. -/
def State.view (s : State) (m : Master) (r : RegAddr) : Reg64 :=
  let u := r.unit
  let i := r.idx
  let x (v : Reg64) : Reg64 := codedRead r.name.info v
  match r.name with
  | .DEV_LEASE => x s.leaseView
  | .CTL_STAT => x (s.ctlStatView u)
  | .MTB_STATUS => x s.mtbStatusView
  | .MTB_TIME_SEC => s.timeSec
  | .MTB_TIME_NS => s.mtb.latches.getD (Master.code m) 0
  | .MTB_MTIME => BitVec.ofNat 64 s.mtime
  | .MTB_TICK => x s.tickView
  | .MTB_PHASE_ADJ => x s.phaseView
  | .MTB_RASTER_PHASE => s.rasterView i
  | .MTB_TRN_WHEN => s.whenView i
  | .DIS_LIST_STAT => x (s.listStatView i)
  | .DIS_STN_STATE => x (s.stnStateView i)
  | .DIS_ACCT_LEFT0 => leftView (s.acct i).sc (s.acct i).cc
  | .DIS_ACCT_LEFT1 => leftView (s.acct i).gr (s.acct i).dram
  | .DIS_ACCT_STAT => x (s.acctStatView i)
  | .INC_SRC => x (s.intSrcView i)
  | .INC_CLAIM => BitVec.ofNat 64 ((s.presentable i).getD 0)
  | .INC_TGT_STAT => x (s.tgtStatView i)
  | .INC_SW_SET => s.swSetView i
  | .LOG_STATUS => x s.logStatusView
  | .LOG_WRPTR => x s.wrptrView
  | .LOG_RING => s.ringView i
  | .SEC_STATUS => x s.secStatusView
  | .LNK_PORT_GSTAT => x (s.gstatView u i)
  | .LNK_GRP_STAT => x (putFld (s.reg .LNK_GRP_STAT u) 63 63 (bnat (s.ports.refclk.getD u false)))
  | .CMP_CAN_STAT => x (s.canStatView u i)
  | .CMP_INS_STAT => x (s.insStatView u i)
  | _ => x (s.reg r.name u i)

/-- A read of a register: its value and its effect. `effects`: the reader is the owner or delegated (17 R387). -/
def State.readReg (s : State) (m : Master) (r : RegAddr) (effects : Bool) : Reg64 × State :=
  match r.name with
  | .MTB_TIME_SEC => (s.timeSec, s.latchTime (Master.code m))
  | .INC_CLAIM =>
    if m = ownMaster r.idx then let (n, t) := s.claimInt r.idx; (BitVec.ofNat 64 n, t) else (s.view m r, s)
  | .SEC_RNG => s.readRng effects
  | _ =>
    let rc := r.name.info.mask [.rc]
    (s.view m r, if effects && rc != 0 then s.setReg r.name (clearedOnRead r.name.info (s.reg r.name r.unit r.idx)) r.unit r.idx else s)

/-- A naturally aligned 64-bit read at an address of the control window. -/
def State.regRead (s : State) (m : Master) (addr : Nat) : State :=
  if s.reaches m = false then s.answerBus 0 3
  else match locate addr with
    | none => s.accessErr m false addr
    | some r =>
      let (v, t) := s.readReg m r (s.mayWrite m)
      t.answerBus v 0

/-- A read of a register by name. -/
def State.readFrom (s : State) (m : Master) (n : RegName) (u : Nat := 0) (i : Nat := 0) : State :=
  s.regRead m (RegAddr.addr ⟨n, u, i⟩)

/-! ### Writes that meet an expiry in one cycle (02 R44; 17 R385; 18 R413) -/

/-- The register write that a command of these is: its master, address and value. -/
def ctrlWrite : Instr → Option (Master × Nat × Reg64)
  | .registerWrite m a v => some (m, a, v)
  | .vernierWrite m v => some (m, RegAddr.addr ⟨.MTB_VERNIER, 0, 0⟩, v)
  | .oscSelWrite m _ v => some (m, RegAddr.addr ⟨.MTB_CTRL, 0, 0⟩, v)
  | .lock m v => some (m, RegAddr.addr ⟨.MTB_CTRL, 0, 0⟩, v)
  | .holdover m v => some (m, RegAddr.addr ⟨.MTB_CTRL, 0, 0⟩, v)
  | .relock m v => some (m, RegAddr.addr ⟨.MTB_CTRL, 0, 0⟩, v ||| 4)
  | .run m v => some (m, RegAddr.addr ⟨.MTB_CTRL, 0, 0⟩, v)
  | .renew m => some (m, RegAddr.addr ⟨.DEV_LEASE, 0, 0⟩, 0x8000000000000000)
  | .aliveKick m v => some (m, RegAddr.addr ⟨.PWR_ALIVE, 0, 0⟩, v ||| 0x8000000000000000)
  | _ => none

/-- Does a write that meets `p` come in the present cycle, from a master that reaches the device? -/
def State.writeMet (s : State) (p : Master → Nat → Reg64 → Bool) : Bool :=
  s.sameCycle.any (fun c => match ctrlWrite c with
    | some (m, a, v) => s.reaches m && p m a v
    | none => false)

/-- An access of any size and alignment (00 R11). -/
def State.access (s : State) (m : Master) (write : Bool) (addr size : Nat) (v : Reg64) : State :=
  if s.reaches m = false then s.answerBus 0 3
  else if size ≠ 8 ∨ addr % 8 ≠ 0 then s.accessErr m write addr
  else if write then s.regWrite m addr v else s.regRead m addr

end Sys2Proof.Machine
end

