-- ==== Sys2Proof/Machine/Control.lean ====
section
/-! DEFINITION. The meanings of the security, log, ownership and service commands (14, 16, 17). -/
namespace Sys2Proof.Machine

/-! ### Security (14) -/

/-- A key command written to SEC_KEY_CMD (R338). -/
def State.keyCommand (s : State) (m : Master) (op ticket bank slot : Nat) : State :=
  s.writeTo m .SEC_KEY_CMD (BitVec.ofNat 64 (op % 16 * 2 ^ 60 + ticket % 256 * 2 ^ 52 + bank % 16 * 2 ^ 48 + slot % 65536 * 2 ^ 32))

/-- KEY_LOAD (R338): op 1. -/
def execKeyLoad (m : Master) (ticket bank slot : Nat) (s : State) : Host.Outcome State Fault Refusal := .next (s.keyCommand m 1 ticket bank slot)

/-- KEY_CLEAR (R338): op 2. -/
def execKeyClear (m : Master) (ticket bank slot : Nat) (s : State) : Host.Outcome State Fault Refusal := .next (s.keyCommand m 2 ticket bank slot)

/-- RNG_READ (R346). -/
def execRngRead (m : Master) (s : State) : Host.Outcome State Fault Refusal := .next (s.readFrom m .SEC_RNG)

/-- ALARM_CLEAR (R350): `active` are the sources whose conditions hold at that moment. -/
def execAlarmClear (m : Master) (active : Nat) (v : Reg64) (s : State) : Host.Outcome State Fault Refusal :=
  .next (({ s with sec := { s.sec with conds := active } } : State).writeTo m .SEC_ALARM_STAT v)

/-! ### The log book (16) -/

/-- LOG_FLUSH (R380, R382): LOG_CMD op 1. -/
def execLogFlush (m : Master) (ticket : Nat) (s : State) : Host.Outcome State Fault Refusal :=
  .next (s.writeTo m .LOG_CMD (BitVec.ofNat 64 (1 * 2 ^ 60 + ticket % 256 * 2 ^ 52)))

/-- READ_SECTOR (R380): LOG_CMD op 2. -/
def execReadSector (m : Master) (ticket sector : Nat) (s : State) : Host.Outcome State Fault Refusal :=
  .next (s.writeTo m .LOG_CMD (BitVec.ofNat 64 (2 * 2 ^ 60 + ticket % 256 * 2 ^ 52 + sector % 1024)))

/-- FLASH_ENABLE (R376): a write of LOG_FLASH with en set. -/
def execFlashEnable (m : Master) (v : Reg64) (s : State) : Host.Outcome State Fault Refusal :=
  .next (s.writeTo m .LOG_FLASH (v ||| 0x8000000000000000))

/-! ### Ownership (17 R383-R389) -/

/-- OWNER_CLAIM (R384): a write of DEV_OWNER with claim set. -/
def execOwnerClaim (m : Master) (v : Reg64) (s : State) : Host.Outcome State Fault Refusal := .next (s.writeTo m .DEV_OWNER (v ||| 1))

/-- OWNER_RELEASE (R385): a write of DEV_OWNER with release set and claim clear. -/
def execOwnerRelease (m : Master) (v : Reg64) (s : State) : Host.Outcome State Fault Refusal :=
  .next (s.writeTo m .DEV_OWNER ((v ||| 2) &&& 0xFFFFFFFFFFFFFFFE))

/-- RENEW (R385, R386): a write of DEV_LEASE with renew set. -/
def execRenew (m : Master) (s : State) : Host.Outcome State Fault Refusal := .next (s.writeTo m .DEV_LEASE 0x8000000000000000)

/-- Does a renewal of the lease come in the present cycle (R385, R386)? -/
def State.leaseMet (s : State) : Bool :=
  s.writeMet (fun m a v => a == RegAddr.addr ⟨.DEV_LEASE, 0, 0⟩ && bit v 63 && (s.ownedBy m || s.successor m))

/-- LEASE_LAPSE (R385): a renewal of the same cycle renews the lease. -/
def execLeaseLapse (s : State) : Host.Outcome State Fault Refusal := .next (if s.leaseMet then s else s.leaseLapse)

/-- HANDOVER_WRITE (R386). -/
def execHandoverWrite (m : Master) (v : Reg64) (s : State) : Host.Outcome State Fault Refusal := .next (s.writeTo m .DEV_HANDOVER v)

/-! ### The in-band agent and MGMT (17 R390, R391) -/

/-- A request performed as an access from a master: status and data of R390; the reply of the access itself is the agent's. -/
def State.perform (s : State) (m : Master) (op addr : Nat) (data : Reg64) : Nat × Reg64 × State :=
  if op = 1 ∨ op = 2 then
    let t := s.access m (op == 2) addr 8 data
    (t.bus.status, t.bus.data, { t with bus := s.bus })
  else (3, 0, s)

/-- The request item at the head of the queue that DEV_IBA_QUEUE names served, and its reply pushed (R390). -/
def State.ibaServe (s : State) : State :=
  let q := s.get F.DEV_IBA_QUEUE_queue
  if s.flag F.DEV_IBA_QUEUE_en = false ∨ ((s.queues.get? q).map (·.cls)).getD 0 ≠ 1 then s
  else match s.popItem q with
    | none => s
    | some (ws, s) =>
      let w0 : Word := (ws[0]?).getD 0
      let w1 : Word := (ws[1]?).getD 0
      let (st, data, s) := s.perform .inband (fld w0 127 124) (fld w0 47 0) (BitVec.ofNat 64 (fld w1 63 0))
      s.pushItem .hif (fld w0 115 96) [BitVec.ofNat 128 (data.toNat * 2 ^ 64 + fld w0 123 116 * 2 ^ 56 + st * 2 ^ 48)]

/-- An MCTP request of MGMT performed and answered; in reset and after a thermal trip the address is not acknowledged (R391; 18 R412). -/
def State.mgmtServe (s : State) (body : List Byte) : State :=
  if s.inReset || s.sys.tripped then s else
    let (st, data, s) := s.perform .mgmt (numAt body 0 1) (numAt body 2 6) (BitVec.ofNat 64 (numAt body 8 8))
    s.emit (.mctp (leBytes 1 st ++ leBytes 1 (numAt body 1 1) ++ leBytes 8 data.toNat))

/-- IBA_REQUEST (R390). -/
def execIbaRequest (s : State) : Host.Outcome State Fault Refusal := .next (s.ibaServe)

/-- MGMT_REQUEST (R391). -/
def execMgmtRequest (body : List Byte) (s : State) : Host.Outcome State Fault Refusal := .next (s.mgmtServe body)

/-! ### Stations, clusters, the datum sheet (17 R393-R402) -/

/-- STN_LOAD (R393): the write of STN_LOAD_CMD of logical station n. -/
def execStnLoad (m : Master) (n : Nat) (v : Reg64) (s : State) : Host.Outcome State Fault Refusal := .next (s.writeTo m .STN_LOAD_CMD v n)

/-- STN_LOAD_COMPLETE (R393). -/
def execStnLoadComplete (n : Nat) (s : State) : Host.Outcome State Fault Refusal := .next (s.stnLoadDone n)

/-- HOLD (R398): CTL_CMD op 1. -/
def execHold (m : Master) (cluster ticket : Nat) (force : Bool) (s : State) : Host.Outcome State Fault Refusal :=
  .next (s.writeTo m .CTL_CMD (BitVec.ofNat 64 (1 * 2 ^ 60 + ticket % 256 * 2 ^ 52 + bnat force * 2 ^ 51)) cluster)

/-- CLUSTER_LOAD (R398): CTL_CMD op 2. -/
def execClusterLoad (m : Master) (cluster ticket : Nat) (dram cs : Bool) (addr : Nat) (s : State) : Host.Outcome State Fault Refusal :=
  .next (s.writeTo m .CTL_CMD
    (BitVec.ofNat 64 (2 * 2 ^ 60 + ticket % 256 * 2 ^ 52 + bnat dram * 2 ^ 50 + bnat cs * 2 ^ 49 + addr % 2 ^ 48)) cluster)

/-- CLUSTER_LOAD_COMPLETE (R398; 18 R408). -/
def execClusterLoadComplete (cluster : Nat) (s : State) : Host.Outcome State Fault Refusal := .next (s.clusterLoaded cluster)

/-- RUN_CLUSTER (R398): CTL_CMD op 3. -/
def execRunCluster (m : Master) (cluster ticket : Nat) (s : State) : Host.Outcome State Fault Refusal :=
  .next (s.writeTo m .CTL_CMD (BitVec.ofNat 64 (3 * 2 ^ 60 + ticket % 256 * 2 ^ 52)) cluster)

/-- A datum command written to PWR_DATUM_CMD (R401, R402). -/
def State.datumCommand (s : State) (m : Master) (op ticket addr : Nat) : State :=
  s.writeTo m .PWR_DATUM_CMD (BitVec.ofNat 64 (op % 16 * 2 ^ 60 + ticket % 256 * 2 ^ 52 + addr % 2 ^ 48))

/-- DATUM_READ (R401): op 1. -/
def execDatumRead (m : Master) (ticket addr : Nat) (s : State) : Host.Outcome State Fault Refusal := .next (s.datumCommand m 1 ticket addr)

/-- DATUM_WRITE (R402): op 2. -/
def execDatumWrite (m : Master) (ticket addr : Nat) (s : State) : Host.Outcome State Fault Refusal := .next (s.datumCommand m 2 ticket addr)

/-- DATUM_WRITE_COMPLETE (R402). -/
def execDatumWriteComplete (s : State) : Host.Outcome State Fault Refusal := .next (s.datumWritten)

/-- RELOAD_SENSOR_TRIMS (R401): op 3. -/
def execReloadSensorTrims (m : Master) (ticket : Nat) (s : State) : Host.Outcome State Fault Refusal := .next (s.datumCommand m 3 ticket 0)

end Sys2Proof.Machine
end

