-- ==== Sys2Proof/Machine/Operands.lean ====
section
/-! DEFINITION. Operand forms of Tarermeus: pointers and modifiers, lanes of vectors, the registers an instruction names
(09 R228, R229, R237-R239). -/
namespace Sys2Proof.Machine

/-! ### Addressing (R238, R239) -/

/-- The least power of two that is not below `n`, from `k` doublings of `p`. -/
def leastPow (n : Nat) : Nat → Nat → Nat
  | 0, p => p
  | k + 1, p => if p ≥ n then p else leastPow n k (2 * p)

/-- The low `k` bits of a number, reversed. -/
def revBits (k n : Nat) : Nat := (List.range k).foldl (fun r i => 2 * r + n / 2 ^ i % 2) 0

/-- A number mod 2^64. -/
def wrap64 (z : Int) : Nat := (z % 2 ^ 64).toNat

/-- Mode and length of a modifier register. -/
def modMode (m : Reg64) : Nat := fld m 63 62
def modLen (m : Reg64) : Nat := fld m 61 40
def modStep (m : Reg64) : Int := signed 32 (fld m 31 0)

/-- The first address of the buffer that a circular or bit-reversed modifier means (R239). -/
def bufBase (p : Nat) (m : Reg64) : Nat := p - p % leastPow (modLen m) 23 1

/-- Does a pointer that uses a circular or bit-reversed modifier lie outside its buffer (R257)? -/
def outsideBuf (p : Nat) (m : Reg64) : Bool := (modMode m == 1 || modMode m == 2) && decide (p - bufBase p m ≥ modLen m)

/-- A pointer after post-modification (R239). -/
def modify (p : Nat) (m : Reg64) : Nat :=
  let len := modLen m
  let k := Nat.log2 len
  if modMode m = 0 ∨ modMode m = 3 then wrap64 (p + modStep m)
  else
    let b := bufBase p m
    if modMode m = 1 ∨ len ≠ 2 ^ k then b + (((p - b : Nat) + modStep m) % len).toNat
    else b + revBits k ((revBits k (p - b) + revBits k (modStep m % len).toNat) % len)

/-- The address that a load or store uses (R238). -/
def Core.address (c : Core) (am : AddrMode) (size : Nat) : Nat :=
  let p := (c.pr am.p).toNat
  if am.amode = 0 then wrap64 (p + am.imm * size) else p

/-- The pointer after a load or store, where the form changes it (R238). -/
def Core.pointerAfter (c : Core) (am : AddrMode) (size : Nat) : Option Nat :=
  let p := (c.pr am.p).toNat
  match am.amode with
  | 1 => some (modify p (c.mr am.m))
  | 2 => some (wrap64 (p + am.imm * size))
  | _ => none

/-- Does the addressing use a pointer outside its buffer (R257)? -/
def Core.addressOpen (c : Core) (am : AddrMode) : Bool := am.amode == 1 && outsideBuf (c.pr am.p).toNat (c.mr am.m)

/-! ### Lanes (R229) -/

/-- Lane `i` of a view of `k`-bit lanes, unsigned. -/
def laneU (k : Nat) (w : Word) (i : Nat) : Nat := fld w (k * i + k - 1) (k * i)

/-- Lane `i` of a view of `k`-bit lanes, signed. -/
def laneS (k : Nat) (w : Word) (i : Nat) : Int := signed k (laneU k w i)

/-- A word from the lanes of a view of `k`-bit lanes. -/
def ofLanes (k : Nat) (l : List Nat) : Word :=
  BitVec.ofNat 128 ((l.zipIdx.map (fun e => e.1 % 2 ^ k * 2 ^ (k * e.2))).foldl (· + ·) 0)

/-- Bits of a lane, by the lanes field of format V (R237). -/
def laneBitsOf (lanes : Nat) : Nat := 16 * 2 ^ lanes

/-! ### Registers that an instruction writes (R234) -/

/-- A scalar-move register. -/
def sregOf : SReg → CReg
  | .g n => .g n | .p n => .p n | .m n => .m n | .c n => .c n

/-- The data register of a load. -/
def dregOf : DReg → CReg
  | .g n => .g n | .w n => .w n

/-- A scalar register that is really written: a write to g0 is discarded. -/
def gDest (n : Nat) : List CReg := if n = 0 then [] else [.g n]

/-- The pointer that an addressing form writes. -/
def amDest (am : AddrMode) : List CReg := if am.amode = 1 ∨ am.amode = 2 then [.p am.p] else []

/-- The registers that an instruction writes, with pointer post-modification (R234). -/
def destsOf : CoreInstr → List CReg
  | .scalar _ gd _ _ => gDest gd
  | .moveReg dst _ => match dst with
    | .g n => gDest n
    | d => [sregOf d]
  | .call _ _ _ => [.g 31]
  | .rep c _ _ _ => [.c c]
  | .mfp gd _ => gDest gd
  | .mtp r _ => [.priv r]
  | .limit gE _ _ => gDest gE
  | .load dst _ _ am => (match dst with
    | .g n => gDest n
    | .w n => [.w n]) ++ amDest am
  | .store _ _ am => amDest am
  | .qpop w _ gd => .w w :: gDest gd
  | .qmark _ _ gd => gDest gd
  | .qrewind _ _ gd => gDest gd
  | .qrelease _ _ gd => gDest gd
  | .qflush _ gd => gDest gd
  | .tready _ gd => gDest gd
  | .tcancel _ gd => gDest gd
  | .moveI _ gd _ => gDest gd
  | .callsvc gd _ n => if n = 0 ∨ n > 5 then [] else gDest gd
  | .valu op wd _ _ _ => match op with
    | .vecToAcc acc _ => [.a acc]
    | _ => [.w wd]
  | .mac a _ _ _ => [.a a]
  | .tapd a _ p _ _ => [.a a, .p p]
  | .sat _ a wd _ _ clear => .w wd :: (if clear then [.a a] else [])
  | .nop => [] | .branch _ _ _ => [] | .ret _ _ => [] | .syncI => [] | .waitI => [] | .tlbinv _ => [] | .eret => []
  | .qpush _ _ _ => [] | .reserved _ => []

/-- The registers that an addressing form reads. -/
def amSource (am : AddrMode) : List CReg := .p am.p :: (if am.amode = 1 then [.m am.m] else [])

/-- The registers that an instruction reads (R235). -/
def sourcesOf : CoreInstr → List CReg
  | .scalar _ _ ga src => .g ga :: (match src with
    | .reg gb => [.g gb]
    | _ => [])
  | .moveReg _ src => [sregOf src]
  | .branch _ ga _ => [.g ga] | .call _ ga _ => [.g ga] | .ret _ ga => [.g ga, .g 31]
  | .rep _ _ fromG count => if fromG then [.g (count % 32)] else []
  | .mfp _ r => [.priv r] | .mtp _ ga => [.g ga] | .tlbinv ga => [.g ga]
  | .limit gE gK w => [.g gE, .g gK, .w w]
  | .load _ _ _ am => amSource am
  | .store src _ am => dregOf src :: amSource am
  | .qpush w g _ => [.w w, .g g] | .qpop _ g _ => [.g g] | .qmark g _ _ => [.g g] | .qrewind g _ _ => [.g g]
  | .qrelease g _ _ => [.g g] | .qflush g _ => [.g g] | .tready g _ => [.g g] | .tcancel g _ => [.g g]
  | .moveI w _ _ => [.w w]
  | .callsvc _ ga n => .g ga :: (if n = 4 then (List.range 8).map (fun i => .g (i + 1)) else [])
  | .valu op _ wa wb _ => match op with
    | .accToVec acc _ => [.aSat acc]
    | .vecToAcc _ _ => [.w wa]
    | _ => [.w wa, .w wb]
  | .mac a wa wb _ => [.a a, .w wa, .w wb]
  | .tapd a wb p m _ => [.a a, .w wb, .p p, .m m]
  | .sat k a wd _ _ _ => [.a a, .aSat a] ++ (if k == .satp then [.w wd] else [])
  | .nop => [] | .syncI => [] | .waitI => [] | .eret => [] | .reserved _ => []

/-- Does no register stand twice in a list? -/
def distinct : List CReg → Bool
  | [] => true
  | a :: l => !l.contains a && distinct l

end Sys2Proof.Machine
end

