-- ==== Sys2Proof/Machine/Flags.lean ====
section
/-! DEFINITION. The wrap ledger and lost flag of the accumulators, the saturating stores and the limiter (09 R240-R243,
R246): Tarermeus has no other flags. -/
namespace Sys2Proof.Machine

/-- A lane after a product (R241); `b` is its width, 40 or 80. -/
def Lane.acc (b : Nat) (l : Lane) (prod : Int) : Lane :=
  let s := l.v + prod
  let (s, k) : Int × Int :=
    if s ≥ 2 ^ (b - 1) then (s - 2 ^ b, 1) else if s < -(2 ^ (b - 1) : Int) then (s + 2 ^ b, -1) else (s, 0)
  if l.lost then { l with v := s }
  else if -8 ≤ l.ledger + k ∧ l.ledger + k ≤ 7 then ⟨s, l.ledger + k, false⟩
  else ⟨s, l.ledger, true⟩

/-- Lane `i` of an accumulator. -/
def Accum.lane (a : Accum) (i : Nat) : Lane := (a.lanes[i]?).getD Lane.zero

/-- Pair `i` as one lane of 80 bits, with the ledger and flag of its upper lane (R241). -/
def Accum.pair (a : Accum) (i : Nat) : Lane :=
  let lo := a.lane (2 * i)
  let hi := a.lane (2 * i + 1)
  ⟨signed 80 (unsigned 40 lo.v + unsigned 40 hi.v * 2 ^ 40), hi.ledger, hi.lost⟩

/-- The two lanes that hold a pair. -/
def pairLanes (l : Lane) : List Lane :=
  let n := unsigned 80 l.v
  [⟨signed 40 n, 0, false⟩, ⟨signed 40 (n / 2 ^ 40), l.ledger, l.lost⟩]

/-- The product of lane or pair `i` (R240). -/
def macProduct (x : MacCtl) (wa wb : Word) (i : Nat) : Int :=
  if x.paired then
    let a : Int := if x.c24 then signed 24 (laneU 32 wa i / 256) else laneS 32 wa i
    a * laneS 16 wb (if x.bcast then x.bsel else 2 * i)
  else laneS 16 wa i * laneS 16 wb (if x.bcast then x.bsel else i)

/-- An accumulator after MAC (R240, R241). -/
def Accum.mac (a : Accum) (x : MacCtl) (wa wb : Word) : Accum :=
  let a := if x.clear then Accum.clear x.paired else a
  let sign (z : Int) : Int := if x.neg then -z else z
  if x.paired then { a with lanes := (List.range 4).flatMap (fun i => pairLanes ((a.pair i).acc 80 (sign (macProduct x wa wb i)))) }
  else { a with lanes := (List.range 8).map (fun i => (a.lane i).acc 40 (sign (macProduct x wa wb i))) }

/-- The value that a saturating store gives (R242). -/
def satValue (l : Lane) (shift width : Nat) : Int :=
  let top : Int := 2 ^ (width - 1) - 1
  let bot : Int := -(2 ^ (width - 1) : Int)
  if l.lost || l.ledger != 0 then (if l.ledger > 0 then top else bot)
  else clampInt (if shift > 0 then (l.v + 2 ^ (shift - 1)) / 2 ^ shift else l.v) bot top

/-- The greatest shift of a saturating store (R242). -/
def satLimit : SatKind → Nat
  | .sat16 => 24 | .sat32 => 8 | .satp => 56

/-- The word that a saturating store leaves in wd (R242). -/
def satWord (k : SatKind) (a : Accum) (old : Word) (shift h : Nat) : Word :=
  match k with
  | .sat16 => ofLanes 16 ((List.range 8).map (fun i => unsigned 16 (satValue (a.lane i) shift 16)))
  | .sat32 => ofLanes 32 ((List.range 4).map (fun i => unsigned 32 (satValue (a.lane (4 * (h % 2) + i)) shift 32)))
  | .satp => ofLanes 32 ((List.range 4).map (fun i => unsigned 24 (satValue (a.pair i) shift 24) * 256 + laneU 32 old i % 256))

/-- The limiter's state after four containers (R246). -/
def limitStep (gE gK : Reg64) (w : Word) : Reg64 :=
  let thr := fld gK 63 40
  let peak := (List.range 4).foldl (fun m i => max m (min (signed 24 (laneU 32 w i / 256)).natAbs (2 ^ 23 - 1))) 0
  let env := fld gE 63 40
  let env := if peak > env then env + (peak - env) * fld gK 39 24 / 65536 else env - (env - peak) * fld gK 23 8 / 65536
  let gain := if env ≤ thr then 16384 else thr * 16384 / env
  BitVec.ofNat 64 (env * 2 ^ 40 + peak * 2 ^ 16 + gain)

end Sys2Proof.Machine
end

