-- ==== Sys2Proof/Machine/BundleOps.lean ====
section
/-! DEFINITION. A bundle on a core (09 R232-R256): legality, traps before any effect, the effect of each slot, what follows the
bundle. -/
namespace Sys2Proof.Machine

/-! ### Legality (R233, R234, R237, R240, R242) -/

/-- May an instruction stand in a slot of a core of this profile (R227, R233)? -/
def slotOk (control : Bool) (slot : Nat) : CoreInstr → Bool
  | .nop => true
  | .scalar _ _ _ _ => slot == 0 | .moveReg _ _ => slot == 0 | .branch _ _ _ => slot == 0 | .call _ _ _ => slot == 0 | .ret _ _ => slot == 0
  | .rep _ _ _ _ => slot == 0 | .syncI => slot == 0 | .limit _ _ _ => slot == 0
  | .mfp _ _ => control && slot == 0 | .mtp _ _ => control && slot == 0 | .waitI => control && slot == 0
  | .tlbinv _ => control && slot == 0 | .eret => control && slot == 0
  | .load _ _ _ _ => slot == 1 | .store _ _ _ => slot == 1 | .qpush _ _ _ => slot == 1 | .qpop _ _ _ => slot == 1
  | .qmark _ _ _ => slot == 1 | .qrewind _ _ _ => slot == 1 | .qrelease _ _ _ => slot == 1 | .qflush _ _ => slot == 1
  | .tready _ _ => slot == 1 | .tcancel _ _ => slot == 1 | .moveI _ _ _ => slot == 1 | .callsvc _ _ _ => slot == 1
  | .valu _ _ _ _ _ => slot == 2 || slot == 3 | .sat _ _ _ _ _ _ => slot == 2 || slot == 3
  | .mac _ _ _ _ => slot == 2 || (slot == 3 && !control) | .tapd _ _ _ _ _ => slot == 2 || (slot == 3 && !control)
  | .reserved _ => false

/-- Is a load or store form one that the opcodes hold (R231, R256; log 67)? -/
def formOk (d : DReg) (size amode : Nat) : Bool :=
  let sizes := match d with
    | .g _ => size == 1 || size == 2 || size == 4 || size == 8
    | .w _ => size == 1 || size == 2 || size == 4 || size == 8 || size == 16
  sizes && amode != 3

/-- Is a MAC or TAPD of this mode legal on an accumulator (R240)? -/
def macOk (c : Core) (a : Nat) (x : MacCtl) : Bool := x.clear || (c.ar a).paired == x.paired

/-- Is an instruction legal on a core in itself? -/
def formLegal (c : Core) : CoreInstr → Bool
  | .branch cond _ _ => decide (cond < 7)
  | .call cond _ _ => decide (cond < 7)
  | .ret cond _ => decide (cond < 7)
  | .load d size _ am => formOk d size am.amode
  | .store d size am => formOk d size am.amode
  | .valu _ _ _ _ lanes => decide (lanes < 3)
  | .mac a _ _ x => macOk c a x
  | .tapd a _ _ _ x => macOk c a x
  | .sat k a _ shift _ _ => decide (shift ≤ satLimit k) && (c.ar a).paired == (k == .satp)
  | _ => true

/-- Is an instruction a TAPD? -/
def isTapd : CoreInstr → Bool
  | .tapd _ _ _ _ _ => true
  | _ => false

/-- Does a bundle take no illegal-instruction trap (R233, R234)? -/
def bundleLegal (control : Bool) (c : Core) (b : Bundle) : Bool :=
  let l := [b.s0, b.s1, b.s2, b.s3]
  slotOk control 0 b.s0 && slotOk control 1 b.s1 && slotOk control 2 b.s2 && slotOk control 3 b.s3 &&
    l.all (formLegal c) && distinct (l.flatMap destsOf) && !(isTapd b.s2 && isTapd b.s3)

/-- Is an instruction privileged (R254)? -/
def privileged : CoreInstr → Bool
  | .mfp _ _ => true | .mtp _ _ => true | .waitI => true | .tlbinv _ => true | .eret => true
  | _ => false

/-! ### Repeats and branches (R236, R244, R245) -/

/-- Bundles that a core can address. -/
def bundleSpace (n : Nat) : Nat := if isControl n then 2 ^ 44 else 4096

/-- Length of a repeat's body. -/
def bodyLen (len : Nat) : Nat := if len = 0 then 4096 else len

/-- The count of a REP. -/
def Core.repCount (c : Core) (fromG : Bool) (count : Nat) : Nat := if fromG then fld (c.gr (count % 32)) 31 0 else count

/-- Does a bundle take a repeat fault (R245)? -/
def repeatFault (c : Core) (b : Bundle) : Bool :=
  let ends := c.loops.any (fun l => l.last == c.pc)
  match b.s0 with
  | .rep i len fromG count =>
    ends || (c.repCount fromG count != 0 &&
      (decide (c.loops.length ≥ 4) || c.loops.any (fun l => l.c == i) || c.loops.any (fun l => decide (c.pc + bodyLen len > l.last))))
  | .branch _ _ _ => ends | .call _ _ _ => ends | .ret _ _ => ends
  | _ => false

/-- Is a branch condition met (R237)? -/
def condMet (cond : Nat) (v : Reg64) : Bool :=
  match cond with
  | 0 => true
  | 1 => v.toNat == 0
  | 2 => v.toNat != 0
  | 3 => decide (v.toInt < 0)
  | 4 => decide (v.toInt ≥ 0)
  | 5 => decide (v.toInt > 0)
  | 6 => decide (v.toInt ≤ 0)
  | _ => false

/-- Where a bundle branches to, if it does (R236). -/
def branchTarget (c : Core) (n : Nat) (b : Bundle) : Option Nat :=
  let go (off : Int) : Nat := (((c.pc : Nat) + off) % (bundleSpace n : Nat)).toNat
  match b.s0 with
  | .branch cond ga off => if condMet cond (c.gr ga) then some (go off) else none
  | .call cond ga off => if condMet cond (c.gr ga) then some (go off) else none
  | .ret cond ga => if condMet cond (c.gr ga) then some (pcOf n (c.gr 31)) else none
  | _ => none

/-- The loop test at a bundle's end, innermost first (R244). -/
def Core.loopTest (c : Core) (pc next : Nat) : List Loop → Core
  | [] => { c with pc := next, loops := [] }
  | l :: rest =>
    if l.last ≠ pc then { c with pc := next, loops := l :: rest }
    else if (c.cr l.c).toNat > 1 then { (c.setC l.c (c.cr l.c - 1)) with pc := l.first, loops := l :: rest }
    else c.loopTest pc next rest

/-- Where the core goes after a bundle that has completed; `old` is the core before it. -/
def Core.follow (c old : Core) (n : Nat) (b : Bundle) : Core :=
  let next := (old.pc + 1) % bundleSpace n
  match branchTarget old n b with
  | some t => { c with pc := t, loops := c.loops.filter (fun l => decide (l.first ≤ t ∧ t ≤ l.last)) }
  | none =>
    match b.s0 with
    | .eret => c.eret n
    | .rep i len fromG count =>
      let k := old.repCount fromG count
      let last := (old.pc + bodyLen len) % bundleSpace n
      if k = 0 then { c with pc := (old.pc + 1 + bodyLen len) % bundleSpace n }
      else { (c.setC i (BitVec.ofNat 64 k)) with pc := next, loops := ⟨next, last, i⟩ :: c.loops }
    | _ => c.loopTest old.pc next c.loops

/-! ### Memory accesses of a bundle, weighed before any effect (R231, R243, R254, R255) -/

/-- What weighing an access gives. -/
inductive Weighed where
  | ok (t : Target)
  | trap (code va : Nat)
  | undefined
  deriving DecidableEq, Repr

/-- Where `size` bytes at a virtual address of a core lie: the target, or a page fault (8) or access fault (3). -/
def State.locate (s : State) (n va size : Nat) (k : PageUse) : Weighed × State :=
  let (pa, s) := if isControl n then s.translate n va k else (some va, s)
  match pa with
  | none => (.trap 8 va, s)
  | some pa =>
    let t := if isControl n then controlTarget (bit (s.core n).psr 0) pa size else signalTarget n pa size
    (match t with
     | none => .trap 3 va
     | some (.dram a) => if s.guarded a then .undefined else .ok (.dram a)
     | some t => .ok t, s)

/-- Two parts of one access: a trap of the first part comes first. -/
def Weighed.join (k : Nat) : Weighed → Weighed → Weighed
  | .ok a, .ok b => .ok (.both k a b)
  | .ok _, w => w
  | .undefined, .trap c va => .trap c va
  | w, _ => w

/-- An access of a core of `size` bytes weighed: alignment, range or translation, guarded regions; on a control core each page of an
access that crosses a page is translated (R255). -/
def State.weigh (s : State) (n va size align : Nat) (k : PageUse) : Weighed × State :=
  let first := 4096 - va % 4096
  if va % align ≠ 0 then (.trap 3 va, s)
  else if isControl n && decide (first < size) then
    let (a, s) := s.locate n va first k
    let (b, s) := s.locate n (va + first) (size - first) k
    (a.join first b, s)
  else s.locate n va size k

/-- Is a target in the core's own data memory (R243)? -/
def ownData (n : Nat) : Target → Bool
  | .stn no => !isControl n && decide (n / 4 * 2 ^ 28 + 0x2000000 ≤ no)
  | .ctl _ => true
  | .both _ a b => ownData n a && ownData n b
  | _ => false

/-- The accesses of slot 1, weighed; none where it makes no access. -/
def State.weighSlot1 (s : State) (n : Nat) (c : Core) : CoreInstr → Option Weighed × State
  | .load _ size _ am => if c.addressOpen am then (some .undefined, s) else
      let (w, s) := s.weigh n (c.address am size) size size .read
      (some w, s)
  | .store _ size am => if c.addressOpen am then (some .undefined, s) else
      let (w, s) := s.weigh n (c.address am size) size size .write
      (some w, s)
  | _ => (none, s)

/-- A TAPD's two accesses weighed: the samples at p and the store at p + e. -/
def State.weighTapd (s : State) (n : Nat) (c : Core) (p m : Nat) (paired : Bool) : Weighed × Weighed × State :=
  let a := (c.pr p).toNat
  let e := if paired then 4 else 2
  if outsideBuf a (c.mr m) then (.undefined, .undefined, s) else
    let own (w : Weighed) (va : Nat) : Weighed := match w with
      | .ok t => if ownData n t then .ok t else .trap 3 va
      | .undefined => .trap 3 va
      | w => w
    let (r, s) := s.weigh n a 16 e .read
    let (w, s) := s.weigh n (a + e) 16 e .write
    (own r a, own w (a + e), s)

/-- The accesses of a vector slot, weighed. -/
def State.weighVec (s : State) (n : Nat) (c : Core) : CoreInstr → Option (Weighed × Weighed) × State
  | .tapd _ _ p m x => let (r, w, s) := s.weighTapd n c p m x.paired; (some (r, w), s)
  | _ => (none, s)

/-- The trap of the slot-1 service, if it has one (R250, R254). -/
def serviceTrap (control : Bool) : CoreInstr → Option Nat
  | .callsvc _ _ k =>
    if control then (if k ≥ 0x8000 then some 10 else if k = 0 ∨ k > 5 then some 4 else none)
    else if k > 5 then some 4 else none
  | _ => none

/-! ### Slot 0 (R246, R254, R256) -/

/-- A scalar operation on two values; a shift by more than 63 is a free value (log 67). -/
def scalarOp (op : ScalarOp) (a b : Reg64) : Option Reg64 :=
  let flag (x : Bool) : Option Reg64 := some (BitVec.ofNat 64 (bnat x))
  match op with
  | .add => some (a + b) | .sub => some (a - b) | .and => some (a &&& b) | .or => some (a ||| b) | .xor => some (a ^^^ b)
  | .shl => if b.toNat < 64 then some (a <<< b.toNat) else none
  | .shr => if b.toNat < 64 then some (a >>> b.toNat) else none
  | .sar => if b.toNat < 64 then some (a.sshiftRight b.toNat) else none
  | .mul => some (a * b)
  | .seq => flag (a == b) | .sne => flag (a != b) | .slt => flag (a.slt b) | .sltu => flag (a.ult b)
  | .sge => flag (!a.slt b) | .sgeu => flag (!a.ult b)

/-- A scalar-move register read. -/
def Core.sreg (c : Core) : SReg → Reg64
  | .g i => c.gr i | .p i => c.pr i | .m i => c.mr i | .c i => c.cr i

/-- A scalar-move register written. -/
def Core.setSreg (c : Core) (r : SReg) (v : Reg64) : Core :=
  match r with
  | .g i => c.setG i v
  | .p i => { c with p := c.p.put i v }
  | .m i => { c with m := c.m.put i v }
  | .c i => c.setC i v

/-- A privileged register read. -/
def Core.priv (c : Core) : PrivReg → Reg64
  | .psr => c.psr | .tvec => c.tvec | .epc => c.epc | .cause => c.cause | .tval => c.tval | .ptbr => c.ptbr

/-- A privileged register written; psr holds four bits (R254). -/
def Core.setPriv (c : Core) (r : PrivReg) (v : Reg64) : Core :=
  match r with
  | .psr => { c with psr := v &&& 0xF } | .tvec => { c with tvec := v } | .epc => { c with epc := v }
  | .cause => { c with cause := v } | .tval => { c with tval := v } | .ptbr => { c with ptbr := v }

/-- The effect of slot 0 on its core; `c` is the core before the bundle. -/
def State.slot0 (s : State) (n : Nat) (c : Core) : CoreInstr → State
  | .scalar op gd ga src =>
    let b : Reg64 := match src with
      | .reg gb => c.gr gb
      | .imm i => BitVec.ofInt 64 i
    match scalarOp op (c.gr ga) b with
    | some v => s.setCore n ((s.core n).setG gd v)
    | none => let (f, s) := s.fresh; s.setCore n ((s.core n).setG gd (BitVec.ofNat 64 f))
  | .moveReg dst src => s.setCore n ((s.core n).setSreg dst (c.sreg src))
  | .call cond ga _ => if condMet cond (c.gr ga) then s.setCore n ((s.core n).setG 31 (bundleAddr n ((c.pc + 1) % bundleSpace n))) else s
  | .limit gE gK w => s.setCore n ((s.core n).setG gE (limitStep (c.gr gE) (c.gr gK) (c.wr w)))
  | .mfp gd r => s.setCore n ((s.core n).setG gd (c.priv r))
  | .mtp r ga => s.setCore n ((s.core n).setPriv r (c.gr ga))
  | .tlbinv ga => s.setCore n ((s.core n).tlbInv (c.gr ga).toNat)
  | .syncI => s.setCore n { s.core n with syncing := !s.syncDone n }
  | .waitI => s.setCore n { s.core n with sleep := !s.named n }
  | _ => s

/-! ### Slots 2 and 3 (R240-R243, R256) -/

/-- A free value written to a vector register (log 67). -/
def State.freeVec (s : State) (n wd : Nat) : State :=
  let (f, s) := s.fresh
  s.setCore n ((s.core n).setW wd (BitVec.ofNat 128 f))

/-- A lane-wise operation; none where the spec states no value (log 67). -/
def laneOp (op : VecOp) (k : Nat) (a b : Nat) : Option Nat :=
  let m := 2 ^ k
  match op with
  | .add => some ((a + b) % m)
  | .sub => some ((a + m - b % m) % m)
  | .min => some (if signed k a ≤ signed k b then a else b)
  | .max => some (if signed k a ≥ signed k b then a else b)
  | .shl => if b < k then some (a * 2 ^ b % m) else none
  | .shr => if b < k then some (a / 2 ^ b) else none
  | .sar => if b < k then some (unsigned k (signed k a / 2 ^ b)) else none
  | .and => some (a &&& b) | .or => some (a ||| b) | .xor => some (a ^^^ b)
  | _ => none

/-- The lanes of a lane-wise operation. -/
def laneOps (op : VecOp) (k : Nat) (a b : Word) : List (Option Nat) :=
  (List.range (128 / k)).map (fun i => laneOp op k (laneU k a i) (laneU k b i))

/-- Each lane that is not stated takes a free value. -/
def State.fillLanes (s : State) : List (Option Nat) → List Nat × State
  | [] => ([], s)
  | o :: l =>
    let (v, s) := match o with
      | some v => (v, s)
      | none => s.fresh
    let (vs, s) := s.fillLanes l
    (v :: vs, s)

/-- A vector ALU instruction. -/
def State.vecAlu (s : State) (n : Nat) (c : Core) (op : VecOp) (wd wa wb lanes : Nat) : State :=
  let k := laneBitsOf lanes
  match op with
  | .vecToAcc acc _ =>
    let (f, s) := s.fresh
    let ls := (List.range 8).map (fun i => laneOf (f / 2 ^ (48 * i) % 2 ^ 45))
    s.setCore n ((s.core n).setA acc { (c.ar acc) with lanes := ls })
  | .cmpEq => s.freeVec n wd | .cmpLt => s.freeVec n wd | .pack => s.freeVec n wd | .shuffle => s.freeVec n wd
  | .accToVec _ _ => s.freeVec n wd
  | op =>
    let (vs, s) := s.fillLanes (laneOps op k (c.wr wa) (c.wr wb))
    s.setCore n ((s.core n).setW wd (ofLanes k vs))

/-- The effect of slot 2 or 3 on its core; `was` is the memory before the bundle, `t` a TAPD's targets. -/
def State.vecSlot (s : State) (was : State) (n : Nat) (c : Core) (t : Option (Weighed × Weighed)) : CoreInstr → State
  | .valu op wd wa wb lanes => s.vecAlu n c op wd wa wb lanes
  | .mac a wa wb x => s.setCore n ((s.core n).setA a ((c.ar a).mac x (c.wr wa) (c.wr wb)))
  | .tapd a wb p m x =>
    match t with
    | some (.ok r, .ok w) =>
      let b := was.readTarget 16 r
      let s := s.writeTarget b w
      let d := (s.core n).setA a ((c.ar a).mac { x with bcast := false } (BitVec.ofNat 128 (leNat b)) (c.wr wb))
      s.setCore n { d with p := d.p.put p (BitVec.ofNat 64 (modify (c.pr p).toNat (c.mr m))) }
    | _ => s
  | .sat k a wd shift h clear =>
    let d := (s.core n).setW wd (satWord k (c.ar a) (c.wr wd) shift h)
    s.setCore n (if clear then d.setA a (Accum.clear (c.ar a).paired) else d)
  | _ => s

/-! ### Slot 1 (R231, R247-R250) -/

/-- The flits of a message of a core and of its answer, two each, charged to its task's account (10 R258; 01 R25; log 36). -/
def State.chargeMessages (s : State) (n k : Nat) : State :=
  match isControl n, s.taskAccount n with
  | false, some a => s.charge a 2 (2 * k)
  | _, _ => s

/-- An operation leaves a core, which waits for its reply (R247). -/
def State.sendOp (s : State) (n : Nat) (op : NetOp) (gd : Nat) (w : Option Nat) : State :=
  let s := s.chargeMessages n 2
  let c := s.core n
  s.setCore n { c with ops := c.ops ++ [op], wait := .queue gd w }

/-- A queue number in a scalar register. -/
def Core.queueOf (c : Core) (g : Nat) : Nat := fld (c.gr g) 19 0

/-- A scalar result of slot 1. -/
def State.giveG (s : State) (n gd v : Nat) : State := s.setCore n ((s.core n).setG gd (BitVec.ofNat 64 v))

/-- Block and unit of a core in records: its station or cluster, and its number there (16 R366). -/
def State.coreBlock (s : State) (n : Nat) : Nat := if isControl n then 0x180 + (n - 1024) / 4 else 0x100 + (s.logOf (n / 4)).getD 0

/-- A free scalar result (log 69). -/
def State.giveFree (s : State) (n gd : Nat) : State := let (f, s) := s.fresh; s.giveG n gd f

/-- CALLSVC (R250). -/
def State.service (s : State) (n : Nat) (c : Core) (gd ga k : Nat) : State :=
  let arg := c.gr ga
  match k with
  | 1 => s.giveG n gd s.mtime
  | 2 =>
    match c.task with
    | some r => s.giveG n gd (fld (s.word (r + 48)) 127 64)
    | none => s.giveFree n gd
  | 3 =>
    match s.taskAccount n with
    | some a => s.giveG n gd (unsigned 64 (s.acct a).sc.left)
    | none => s.giveFree n gd
  | 4 =>
    let snap := (List.range 8).map (fun i => fld (c.gr (i + 1)) 31 0)
    ((s.chargeMessages n 1).logEv (fld arg 15 0) (s.coreBlock n) (n % 4) (min 5 (fld arg 18 16)) snap true).giveG n gd 0
  | 5 =>
    let src := fld arg 11 0
    if 1 ≤ src ∧ src ≤ 255 then ((s.chargeMessages n 1).intEvent src).giveG n gd 0 else s.giveG n gd 1
  | _ => s

/-- A load whose access is good. -/
def State.loadFrom (s : State) (was : State) (n : Nat) (dst : DReg) (size : Nat) (sext : Bool) : Target → State
  | .dram a =>
    let s := match s.taskAccount n with
      | some acc => s.chargeBytes acc size
      | none => s
    s.setCore n { s.core n with wait := .load dst size sext a }
  | .window a =>
    let t := s.access (.ctl (n - 1024)) false a size 0
    ({ t with bus := s.bus } : State).loaded n dst size sext (leBytes 8 t.bus.data.toNat)
  | t => s.loaded n dst size sext (was.readTarget size t)

/-- The value that a store takes from its register. -/
def Core.storeValue (c : Core) : DReg → Nat
  | .g i => (c.gr i).toNat
  | .w i => (c.wr i).toNat

/-- A store whose access is good. -/
def State.storeTo (s : State) (n : Nat) (v size : Nat) : Target → State
  | .dram a =>
    let s := (s.wr a (leBytes size v)).noticeWrite a size
    let s := match s.taskAccount n with
      | some acc => s.chargeBytes acc size
      | none => s
    s.setCore n { s.core n with wait := .store }
  | .window a =>
    let t := s.access (.ctl (n - 1024)) true a size (BitVec.ofNat 64 v)
    { t with bus := s.bus }
  | t => s.writeTarget (leBytes size v) t

/-- The pointer of a load or store afterwards. -/
def State.stepPointer (s : State) (n : Nat) (c : Core) (am : AddrMode) (size : Nat) : State :=
  match c.pointerAfter am size with
  | some p => let d := s.core n; s.setCore n { d with p := d.p.put am.p (BitVec.ofNat 64 p) }
  | none => s

/-- A move begins (R249): gd takes its ticket, or waits for its status. -/
def State.beginMove (s : State) (n : Nat) (c : Core) (w gd : Nat) (wait : Bool) : State :=
  let m := newMove n (c.wr w) c.ticket (if wait then some gd else none) ((s.taskAccount n).getD 0)
  let d := s.core n
  let d := { d with moves := d.moves ++ [m], ticket := (d.ticket + 1) % 65536 }
  s.setCore n (if wait then { d with wait := .move gd } else d.setG gd (BitVec.ofNat 64 c.ticket))

/-- The effect of slot 1; `w` is its access as weighed, `was` the memory before the bundle. -/
def State.slot1 (s : State) (was : State) (n : Nat) (c : Core) (w : Option Weighed) : CoreInstr → State
  | .load dst size sext am =>
    match w with
    | some (.ok t) => (s.stepPointer n c am size).loadFrom was n dst size sext t
    | _ => s
  | .store src size am =>
    match w with
    | some (.ok t) => (s.stepPointer n c am size).storeTo n (c.storeValue src) size t
    | _ => s
  | .qpush w g last =>
    let s := s.chargeMessages n 2
    let d := s.core n
    s.setCore n { d with ops := d.ops ++ [.push (c.queueOf g) (c.wr w) last], posted := d.posted + 1 }
  | .qpop w g gd => s.sendOp n (.pop (c.queueOf g)) gd (some w)
  | .qmark g k gd => s.sendOp n (.mark (c.queueOf g) k) gd none
  | .qrewind g k gd => s.sendOp n (.rewind (c.queueOf g) k) gd none
  | .qrelease g flags gd => s.sendOp n (.release (c.queueOf g) flags) gd none
  | .qflush g gd => s.sendOp n (.flush (c.queueOf g)) gd none
  | .tready g gd => s.sendOp n (.tready (fld (c.gr g) 47 0)) gd none
  | .tcancel g gd => s.sendOp n (.tcancel (fld (c.gr g) 47 0)) gd none
  | .moveI w gd wait => s.beginMove n c w gd wait
  | .callsvc gd ga k => s.service n c gd ga k
  | _ => s

/-! ### The whole bundle -/

/-- Must a bundle wait at issue: a 17th posted operation (R247), or a SYNC beside an instruction that waits (log 67)? -/
def State.holdsIssue (s : State) (n : Nat) (c : Core) (b : Bundle) : Bool :=
  let posts := match b.s1 with
    | .qpush _ _ _ => true
    | _ => false
  (posts && decide (c.posted ≥ 16)) || (b.s0 == .syncI && b.s1 != .nop && !s.syncDone n)

/-- Does a bundle end its task (R250)? -/
def bundleEnds (n : Nat) (b : Bundle) : Bool :=
  match b.s1 with
  | .callsvc _ _ 0 => !isControl n
  | _ => false

/-- The completion value of END. -/
def endValue (c : Core) (b : Bundle) : Nat :=
  match b.s1 with
  | .callsvc _ ga _ => fld (c.gr ga) 31 0
  | _ => 0

/-- The registers that an instruction writes, with the least cycles from its issue to their use (R235). -/
def latencies (w : Option Weighed) : CoreInstr → List (CReg × Nat)
  | .scalar op gd _ _ => (gDest gd).map (fun r => (r, if op == .mul then 3 else 1))
  | .limit gE _ _ => (gDest gE).map (fun r => (r, 4))
  | .load dst size sext am =>
    let k := match w with
      | some (.ok (.stn no)) => if 0x2000000 ≤ no % 2 ^ 28 then 3 else 8
      | _ => 1
    (destsOf (.load dst size sext am)).map (fun r => (r, if r == dregOf dst then k else 1))
  | .valu op wd wa wb lanes => (destsOf (.valu op wd wa wb lanes)).map (fun r => (r, 2))
  | .mac a _ _ _ => [(.a a, 1), (.aSat a, 3)]
  | .tapd a _ p _ _ => [(.a a, 1), (.aSat a, 3), (.p p, 1)]
  | i => (destsOf i).map (fun r => (r, 1))

/-- The cycles a bundle waits at issue for its sources (R235). -/
def Core.stall (c : Core) (b : Bundle) : Nat :=
  let use := [b.s0, b.s1, b.s2, b.s3].flatMap sourcesOf
  (c.ready.filter (fun e => use.contains e.1)).foldl (fun k e => max k (e.2 - c.cycle)) 0

/-- The cycles of a bundle pass on its core; `old` is the core before it, `k` its cycles after issue (R235, R236). -/
def Core.spend (c old : Core) (b : Bundle) (w : Option Weighed) (k up : Nat) : Core :=
  let at_ := old.cycle + old.stall b
  let new := [b.s0, b.s1, b.s2, b.s3].flatMap (latencies w)
  { c with
    cycle := at_ + k
    since := up
    holdAt := none
    ready := ((new.map (fun e => (e.1, at_ + e.2))) ++ old.ready.filter (fun e => !(new.map (·.1)).contains e.1)).filter
      (fun e => decide (e.2 > at_ + k)) }

/-- The effects of a bundle that takes no trap; `c` is the core before it. -/
def State.complete (s : State) (n : Nat) (c : Core) (b : Bundle) (w1 : Option Weighed) (w2 w3 : Option (Weighed × Weighed)) : State :=
  let was := s
  let s := s.slot0 n c b.s0
  let s := s.vecSlot was n c w2 b.s2
  let s := s.vecSlot was n c w3 b.s3
  let s := s.slot1 was n c w1 b.s1
  let s := s.setCore n ((s.core n).follow c n b)
  let k := if (branchTarget c n b).isSome then 2 else 1
  let s := s.setCore n ((s.core n).spend c b w1 k s.upNs)
  let held := (c.holdAt.map (fun t => 2 * (s.upNs - t))).getD 0
  let s := match isControl n, s.taskAccount n with
    | false, some a => s.charge a 0 (c.stall b + k + held)
    | _, _ => s
  if bundleEnds n b then s.leaveCore n 0 0 (endValue c b) else s

/-- The first trap among weighed accesses. -/
def firstTrap : List Weighed → Option (Nat × Nat)
  | [] => none
  | .trap k va :: _ => some (k, va)
  | _ :: l => firstTrap l

/-- The bundle of core `n` weighed and, where nothing traps, completed; none where R257 leaves the outcome not defined. The
order of traps in one bundle is log 69. -/
def State.issue (s : State) (n : Nat) (b : Bundle) : Option State :=
  let c := s.core n
  let control := isControl n
  if bundleLegal control c b = false then some (s.trapBundle n 2 none)
  else if control && !bit c.psr 0 && privileged b.s0 then some (s.trapBundle n 9 none)
  else if repeatFault c b then some (s.trapBundle n 5 none)
  else match serviceTrap control b.s1 with
    | some k => some (s.trapBundle n k none)
    | none =>
      if s.holdsIssue n c b then some (s.setCore n { c with holdAt := some (c.holdAt.getD s.upNs) }) else
        let (w1, s) := s.weighSlot1 n c b.s1
        let (w2, s) := s.weighVec n c b.s2
        let (w3, s) := s.weighVec n c b.s3
        let pair : Option (Weighed × Weighed) → List Weighed
          | some (r, w) => [r, w]
          | none => []
        let all := w1.toList ++ pair w2 ++ pair w3
        match firstTrap all with
        | some (k, va) => some (s.trapBundle n k (some va))
        | none => if all.contains .undefined then none else some (s.complete n (s.core n) b w1 w2 w3)

/-- Is a core ready to issue a bundle: running, and waiting for nothing (R235)? -/
def State.canIssue (s : State) (n : Nat) : Bool :=
  let c := s.core n
  c.started && !c.held && c.wait == .no && !c.syncing && !c.sleep

/-- The fetch of a control core translated (R255); a signal core fetches from its own memory. -/
def State.fetched (s : State) (n : Nat) : Bool × State :=
  if isControl n then
    let (pa, s) := s.translate n (16 * (s.core n).pc) .exec
    (pa.isSome, s)
  else (true, s)

/-- BUNDLE_EXECUTE (R234, R252): the budget trap comes first, then the fetch, then the bundle; none where the outcome is not
defined. -/
def State.bundle (s : State) (n : Nat) (b : Bundle) : Option State :=
  if s.canIssue n = false then some s
  else if !isControl n && ((s.taskAccount n).map (fun a => s.knowsOut (.core n) a)).getD false then some (s.budgetTrap n)
  else
    let (ok, s) := s.fetched n
    if ok = false then some (s.trapBundle n 8 (some (16 * (s.core n).pc))) else s.issue n b

end Sys2Proof.Machine
end

