-- ==== Sys2Proof/Machine/Cores.lean ====
section
/-! DEFINITION. The meanings of the cores' commands (09). -/
namespace Sys2Proof.Machine

/-- BUNDLE_EXECUTE (R234, R252): the bundle completes or traps before any effect; a case of R257 stops as not defined. -/
def execBundleExecute (core : Nat) (b : Bundle) (s : State) : Host.Outcome State Fault Refusal :=
  match s.bundle core b with
  | some t => .next t
  | none => .fault (.notDefined 257)

/-- SYNC (R251). -/
def execSync (core : Nat) (s : State) : Host.Outcome State Fault Refusal := .next (s.syncEnd core)

/-- DRAM_LOAD_REPLY (R231, R235). -/
def execDramLoadReply (core : Nat) (s : State) : Host.Outcome State Fault Refusal := .next (s.dramReply core)

/-- INTERRUPT_ENTRY (R254; 15 R356). -/
def execInterruptEntry (core : Nat) (s : State) : Host.Outcome State Fault Refusal := .next (s.interruptEntry core)

/-- POSTED_ACK (R247). -/
def execPostedAck (core : Nat) (s : State) : Host.Outcome State Fault Refusal := .next (s.postedAck core)

/-- QUEUE_REPLY (R248). -/
def execQueueReply (core : Nat) (s : State) : Host.Outcome State Fault Refusal := .next (s.queueReply core)

/-- MOVE (R249): the next tile of a core's oldest move. -/
def execMove (core : Nat) (s : State) : Host.Outcome State Fault Refusal := .next (s.moverStep core)

/-- MOVE_COMPLETE (R249). -/
def execMoveComplete (core : Nat) (s : State) : Host.Outcome State Fault Refusal := .next (s.moveComplete core)

end Sys2Proof.Machine
end

