-- ==== Sys2Proof/Machine/Ingress.lean ====
section
/-! DEFINITION. The meanings of the ingress and forwarding commands that are no register writes (03, 04; 12 R294). -/
namespace Sys2Proof.Machine

/-- FRAME_RECEIVE (12 R294-R296): the MAC's tests; `bytes` is the frame without its FCS. -/
def execFrameReceive (lg port : Nat) (bytes : List Byte) (fcsGood : Bool) (s : State) : Host.Outcome State Fault Refusal :=
  .next (s.macReceive lg port bytes fcsGood)

/-- INGRESS_PIPELINE (R62): the next frame of the receive buffer passes stages 2 to 9. -/
def execIngressPipeline (lg : Nat) (s : State) : Host.Outcome State Fault Refusal := .next (s.ingressNext lg)

/-- FLOW_CMD_COMPLETE (R70). -/
def execFlowCmdComplete (s : State) : Host.Outcome State Fault Refusal := .next s.flowComplete

/-- STOP_APPLY (R74). -/
def execStopApply (lg : Nat) (s : State) : Host.Outcome State Fault Refusal := .next (s.stopApply lg)

/-- STOP_SWEEP_DONE (R74; 04 R115). -/
def execStopSweepDone (lg : Nat) (s : State) : Host.Outcome State Fault Refusal := .next (s.stopSwept lg)

/-- STOP_COMPLETE (R74). -/
def execStopComplete (s : State) : Host.Outcome State Fault Refusal := .next s.stopComplete

/-- RECORD_WRITEBACK (R87; 04 R93, R95). -/
def execRecordWriteback (kind : WbKind) (idx : Nat) (s : State) : Host.Outcome State Fault Refusal := .next (s.writeBack kind idx)

/-- LOCAL_PACKET_INTAKE (04 R106). -/
def execLocalPacketIntake (lg : Nat) (s : State) : Host.Outcome State Fault Refusal := .next (s.localNext lg)

/-- REPLICATION_WALK (04 R97). -/
def execReplicationWalk (lg : Nat) (s : State) : Host.Outcome State Fault Refusal := .next (s.walkNext lg)

/-- COPY_ENQUEUE (04 R109, R113). -/
def execCopyEnqueue (lg : Nat) (s : State) : Host.Outcome State Fault Refusal := .next (s.copyArrives lg)

/-- SEL_CMD_COMPLETE (04 R101). -/
def execSelCmdComplete (lg : Nat) (s : State) : Host.Outcome State Fault Refusal := .next (s.selComplete lg)

/-- RETRANSMIT_REQUEST (04 R114). -/
def execRetransmitRequest (lg : Nat) (s : State) : Host.Outcome State Fault Refusal := .next (s.rtxNext lg)

/-- BUFFER_HOLD_EXPIRY (04 R112). -/
def execBufferHoldExpiry (buf : Nat) (s : State) : Host.Outcome State Fault Refusal := .next (s.holdEnds buf)

/-- BUFFER_RELEASE (04 R112). -/
def execBufferRelease (buf : Nat) (s : State) : Host.Outcome State Fault Refusal := .next (s.bufRelease buf)

end Sys2Proof.Machine
end

