-- ==== Sys2Proof/Machine/Interrupts.lean ====
section
/-! DEFINITION. The meanings of the interrupt controller's commands (15). -/
namespace Sys2Proof.Machine

/-- The presentable source of a control core reaches it; a doorbell with something newly presentable sends its message
(R356, R363). -/
def State.presentInt (s : State) (t : Nat) : State :=
  match s.presentable t with
  | none => s
  | some n =>
    if t < 16 then s.setCore (1024 + t) { s.core (1024 + t) with presented := some n }
    else if t < 18 ∧ s.inc.doorbell.getD (t - 16) false = false then
      ({ s with inc := { s.inc with doorbell := s.inc.doorbell.put (t - 16) true } } : State).ring (t - 16)
    else s

/-- INTERRUPT_EVENT (R353-R357): an event of an edge source, or a change of a level input. -/
def execInterruptEvent (source : Nat) (s : State) : Host.Outcome State Fault Refusal :=
  .next (if levelSource source then s.arbitrate else s.intEvent source)

/-- SOFTWARE_SET (R353, R357): the write of INC_SW_SET[a]. -/
def execSoftwareSet (m : Master) (a : Nat) (v : Reg64) (s : State) : Host.Outcome State Fault Refusal := .next (s.writeTo m .INC_SW_SET v 0 a)

/-- INTERRUPT_PRESENT (R356, R363). -/
def execInterruptPresent (target : Nat) (s : State) : Host.Outcome State Fault Refusal := .next (s.presentInt target)

/-- INTERRUPT_CLAIM (R358): a read of INC_CLAIM[t]. -/
def execInterruptClaim (m : Master) (target : Nat) (s : State) : Host.Outcome State Fault Refusal := .next (s.readFrom m .INC_CLAIM 0 target)

/-- EOI (R359, R363): a write of INC_EOI[t]. -/
def execEoi (m : Master) (target source : Nat) (s : State) : Host.Outcome State Fault Refusal :=
  .next (s.writeTo m .INC_EOI (BitVec.ofNat 64 (source % 4096)) 0 target)

/-- SOURCE_CONFIG_WRITE (R354, R361): a write of INC_SRC. -/
def execSourceConfigWrite (m : Master) (source : Nat) (v : Reg64) (s : State) : Host.Outcome State Fault Refusal :=
  .next (s.writeTo m .INC_SRC v 0 source)

/-- WAIT_WAKE (R362). -/
def execWaitWake (core : Nat) (s : State) : Host.Outcome State Fault Refusal := .next (s.waitWake core)

/-- TARGET_RESET (R364). -/
def execTargetReset (target : Nat) (s : State) : Host.Outcome State Fault Refusal := .next (s.targetReset target)

end Sys2Proof.Machine
end

