-- ==== Sys2Proof/Machine/Log.lean ====
section
/-! DEFINITION. The meanings of the log book's commands (16). -/
namespace Sys2Proof.Machine

/-- LOG_EVENT (R367, R369, R370): an event reported by a node arrives at the capture queue. -/
def execLogEvent (code block unit severity : Nat) (prog : Bool) (snap : List Nat) (s : State) : Host.Outcome State Fault Refusal :=
  .next (s.logEv code block unit severity snap prog)

/-- RING_MOVE (R370-R373). -/
def execRingMove (s : State) : Host.Outcome State Fault Refusal := .next s.moveEntry

/-- FLUSH_START (R377): a flush that was asked for, or that of a new meridian second, starts while flash is enabled and
no other flush runs. -/
def execFlushStart (s : State) : Host.Outcome State Fault Refusal :=
  if s.flag F.LOG_FLASH_en && s.log.flush.isNone && (s.log.flushReq || s.log.flushSec != s.nanos / 10 ^ 9) then
    .next (s.startFlush false)
  else .next s

/-- FLUSH_PAGE (R375, R379). -/
def execFlushPage (s : State) : Host.Outcome State Fault Refusal := .next s.flushPage

/-- FLASH_ERROR (R378): the flash reports a failure, or a page stays unfinished for 10 ms. -/
def execFlashError (s : State) : Host.Outcome State Fault Refusal := .next s.flashFails

end Sys2Proof.Machine
end

