-- ==== Sys2Proof/Machine/MediaCommands.lean ====
section
/-! DEFINITION. The meanings of the register commands of the link groups, codec cores, composers, audio and memory nodes
(03-08, 11-13). -/
namespace Sys2Proof.Machine

/-! ### Ingress (03) -/

/-- What follows an accepted write. -/
def State.thenServe (s : State) (f : State → State) : State := if s.bus.status = 0 then f s else s

/-- BUF_RET (R66). -/
def execBufRet (m : Master) (lg : Nat) (v : Reg64) (s : State) : Host.Outcome State Fault Refusal := .next (s.writeTo m .LNK_BUF_RET v lg)

/-- A flow command written to LNK_FLOW_CMD, and its effect (R70). -/
def State.flowCommand (s : State) (m : Master) (op ticket stream : Nat) : State :=
  (s.writeTo m .LNK_FLOW_CMD (BitVec.ofNat 64 (op % 16 * 2 ^ 60 + ticket % 256 * 2 ^ 52 + stream % 2 ^ 20))).thenServe State.serveFlow

/-- INSERT (R70, R71): flow command op 1. -/
def execInsert (m : Master) (ticket stream : Nat) (s : State) : Host.Outcome State Fault Refusal := .next (s.flowCommand m 1 ticket stream)

/-- DELETE (R70, R71): flow command op 2. -/
def execDelete (m : Master) (ticket stream : Nat) (s : State) : Host.Outcome State Fault Refusal := .next (s.flowCommand m 2 ticket stream)

/-- UPDATE (R70, R71): flow command op 3. -/
def execUpdate (m : Master) (ticket stream : Nat) (s : State) : Host.Outcome State Fault Refusal := .next (s.flowCommand m 3 ticket stream)

/-- FLOW_SYNC (R70, R71): flow command op 4. -/
def execFlowSync (m : Master) (ticket stream : Nat) (s : State) : Host.Outcome State Fault Refusal := .next (s.flowCommand m 4 ticket stream)

/-- A stop command written to LNK_STOP_CMD (R73, R75). -/
def State.stopCommand (s : State) (m : Master) (op ticket index : Nat) : State :=
  s.writeTo m .LNK_STOP_CMD (BitVec.ofNat 64 (op % 8 * 2 ^ 61 + ticket % 256 * 2 ^ 53 + index % 2 ^ 20))

/-- STOP_LEG (R73-R75): stop command op 1. -/
def execStopLeg (m : Master) (ticket index : Nat) (s : State) : Host.Outcome State Fault Refusal := .next (s.stopCommand m 1 ticket index)

/-- RESTART_LEG (R73-R75): stop command op 2. -/
def execRestartLeg (m : Master) (ticket index : Nat) (s : State) : Host.Outcome State Fault Refusal := .next (s.stopCommand m 2 ticket index)

/-- BLOCK_STREAM (R73-R75): stop command op 3. -/
def execBlockStream (m : Master) (ticket index : Nat) (s : State) : Host.Outcome State Fault Refusal := .next (s.stopCommand m 3 ticket index)

/-- UNBLOCK_STREAM (R73-R75): stop command op 4. -/
def execUnblockStream (m : Master) (ticket index : Nat) (s : State) : Host.Outcome State Fault Refusal := .next (s.stopCommand m 4 ticket index)

/-- POLICER_CONFIG_WRITE (R77, R90): `which` 0 is LNK_POL_CFG0[i], any other LNK_POL_CFG1[i]. -/
def execPolicerConfigWrite (m : Master) (lg i which : Nat) (v : Reg64) (s : State) : Host.Outcome State Fault Refusal :=
  .next (s.writeTo m (if which = 0 then .LNK_POL_CFG0 else .LNK_POL_CFG1) v lg i)

/-! ### Legs and layers (04) -/

/-- A selection command written to LNK_SEL_CMD, and its effect (R101). -/
def State.selCommand (s : State) (m : Master) (lg op ticket sp t index : Nat) : State :=
  (s.writeTo m .LNK_SEL_CMD
    (BitVec.ofNat 64 (op % 16 * 2 ^ 60 + ticket % 256 * 2 ^ 52 + sp % 16 * 2 ^ 48 + t % 16 * 2 ^ 44 + index % 2 ^ 24)) lg).thenServe (fun s => s.serveSel lg)

/-- SELECT (R101): op 1; `sp` and `t` are the layers. -/
def execSelect (m : Master) (lg ticket sp t index : Nat) (s : State) : Host.Outcome State Fault Refusal :=
  .next (s.selCommand m lg 1 ticket sp t index)

/-- REFRESH (R101): op 2. -/
def execRefresh (m : Master) (lg ticket index : Nat) (s : State) : Host.Outcome State Fault Refusal := .next (s.selCommand m lg 2 ticket 0 0 index)

/-- CLEAR (R101): op 3. -/
def execClear (m : Master) (lg ticket index : Nat) (s : State) : Host.Outcome State Fault Refusal := .next (s.selCommand m lg 3 ticket 0 0 index)

/-- RELOAD_LEG (R93, R101): op 4. -/
def execReloadLeg (m : Master) (lg ticket index : Nat) (s : State) : Host.Outcome State Fault Refusal := .next (s.selCommand m lg 4 ticket 0 0 index)

/-- RELOAD_ROOM (R101, R107): op 5. -/
def execReloadRoom (m : Master) (lg ticket index : Nat) (s : State) : Host.Outcome State Fault Refusal := .next (s.selCommand m lg 5 ticket 0 0 index)

/-- CLASS_SHAPER_WRITE (R110, R117): `which` 0 is LNK_CLASS_SHP0[i], any other LNK_CLASS_SHP1[i]. -/
def execClassShaperWrite (m : Master) (lg i which : Nat) (v : Reg64) (s : State) : Host.Outcome State Fault Refusal :=
  .next (s.writeTo m (if which = 0 then .LNK_CLASS_SHP0 else .LNK_CLASS_SHP1) v lg i)

/-! ### Codec gangs, canvases, audio (05, 07, 08) -/

/-- GANG_ENABLE (05 R140, R148): a write of VCC_GANG[g] with en set. -/
def execGangEnable (m : Master) (g : Nat) (v : Reg64) (s : State) : Host.Outcome State Fault Refusal :=
  .next (s.writeTo m .VCC_GANG (v ||| 0x8000000000000000) 0 g)

/-- COMMIT_REQUEST (07 R183): the write of CMP_COMMIT. -/
def execCommitRequest (m : Master) (cmp : Nat) (v : Reg64) (s : State) : Host.Outcome State Fault Refusal := .next (s.writeTo m .CMP_COMMIT v cmp)

/-- The inset shadow register that `which` names (07 R201). -/
def insetReg (which : Nat) : RegName :=
  match which with
  | 0 => .CMP_INS_CTRL | 1 => .CMP_INS_SRC | 2 => .CMP_INS_SIZE | 3 => .CMP_INS_CROP | 4 => .CMP_INS_DST | 5 => .CMP_INS_FENCE
  | _ => .CMP_INS_TARGET

/-- INSET_SHADOW_WRITE (07 R182): a shadow register of inset i of canvas c. -/
def execInsetShadowWrite (m : Master) (cmp c i which : Nat) (v : Reg64) (s : State) : Host.Outcome State Fault Refusal :=
  .next (s.writeTo m (insetReg which) v cmp (64 * c + i))

/-- AUDIO_PORT_ENABLE (08 R211): a write of AUD_PORT_CFG with en set. -/
def execAudioPortEnable (m : Master) (node port : Nat) (v : Reg64) (s : State) : Host.Outcome State Fault Refusal :=
  .next (s.writeTo m .AUD_PORT_CFG (v ||| 0x8000000000000000) node port)

/-- AUDIO_PORT_STOP (08 R211): a write of AUD_PORT_CFG with en clear. -/
def execAudioPortStop (m : Master) (node port : Nat) (v : Reg64) (s : State) : Host.Outcome State Fault Refusal :=
  .next (s.writeTo m .AUD_PORT_CFG (v &&& 0x7FFFFFFFFFFFFFFF) node port)

/-- ROUTE_WRITE (08 R208). -/
def execRouteWrite (m : Master) (node port : Nat) (v : Reg64) (s : State) : Host.Outcome State Fault Refusal :=
  .next (s.writeTo m .AUD_PORT_ROUTE v node port)

/-- MASK_WRITE (08 R213). -/
def execMaskWrite (m : Master) (node port : Nat) (v : Reg64) (s : State) : Host.Outcome State Fault Refusal :=
  .next (s.writeTo m .AUD_PORT_MASK v node port)

/-- FLOW_ENABLE (08 R220, R223): a write of AUD_NET_CFG with en set. -/
def execFlowEnable (m : Master) (node f : Nat) (v : Reg64) (s : State) : Host.Outcome State Fault Refusal :=
  .next (s.writeTo m .AUD_NET_CFG (v ||| 0x8000000000000000) node f)

/-! ### Ports (12) -/

/-- LINK_PORT_ENABLE (R293, R312): a write of LNK_PORT_CFG with en set. -/
def execLinkPortEnable (m : Master) (lg port : Nat) (v : Reg64) (s : State) : Host.Outcome State Fault Refusal :=
  .next (s.writeTo m .LNK_PORT_CFG (v ||| 0x8000000000000000) lg port)

/-- LINK_PORT_DISABLE (R299, R312): a write of LNK_PORT_CFG with en clear. -/
def execLinkPortDisable (m : Master) (lg port : Nat) (v : Reg64) (s : State) : Host.Outcome State Fault Refusal :=
  .next (s.writeTo m .LNK_PORT_CFG (v &&& 0x7FFFFFFFFFFFFFFF) lg port)

/-- GATE_LIST_CHANGE (R302): a write of LNK_PORT_GCTL with change set. -/
def execGateListChange (m : Master) (lg port : Nat) (v : Reg64) (s : State) : Host.Outcome State Fault Refusal :=
  .next (s.writeTo m .LNK_PORT_GCTL (v ||| 0x2000000000000000) lg port)

/-- A packetiser command written to LNK_PKT_CMD (R306). -/
def State.pktCommand (s : State) (m : Master) (lg op ticket flow : Nat) : State :=
  s.writeTo m .LNK_PKT_CMD (BitVec.ofNat 64 (op % 16 * 2 ^ 60 + ticket % 256 * 2 ^ 52 + flow % 256)) lg

/-- PACKETISER_ENABLE (R306): op 1. -/
def execPacketiserEnable (m : Master) (lg ticket flow : Nat) (s : State) : Host.Outcome State Fault Refusal := .next (s.pktCommand m lg 1 ticket flow)

/-- PACKETISER_DISABLE (R306): op 2. -/
def execPacketiserDisable (m : Master) (lg ticket flow : Nat) (s : State) : Host.Outcome State Fault Refusal :=
  .next (s.pktCommand m lg 2 ticket flow)

/-- PACKETISER_RELOAD (R306): op 3. -/
def execPacketiserReload (m : Master) (lg ticket flow : Nat) (s : State) : Host.Outcome State Fault Refusal := .next (s.pktCommand m lg 3 ticket flow)

/-! ### Memory nodes and queues (13, 11) -/

/-- BAND_WRITE (13 R318). -/
def execBandWrite (m : Master) (b : Nat) (v : Reg64) (s : State) : Host.Outcome State Fault Refusal := .next (s.writeTo m .MEM_BAND v 0 b)

/-- RETRAIN (13 R332): MEM_CHAN_CMD op 1. -/
def execRetrain (m : Master) (node ticket chan : Nat) (s : State) : Host.Outcome State Fault Refusal :=
  .next (s.writeTo m .MEM_CHAN_CMD (BitVec.ofNat 64 (1 * 2 ^ 60 + ticket % 256 * 2 ^ 52 + chan % 8)) node)

/-- A queue command written to MEM_Q_CMD; the node then serves the commands that wait (11 R277). -/
def State.memqCommand (s : State) (m : Master) (node op ticket queue : Nat) : State :=
  (s.writeTo m .MEM_Q_CMD (BitVec.ofNat 64 (op % 16 * 2 ^ 60 + ticket % 256 * 2 ^ 52 + queue % 2 ^ 20)) node).thenServe
    (State.serveQueueCmds node 16)

/-- OPEN (11 R277): op 1. -/
def execOpenQueue (m : Master) (node ticket queue : Nat) (s : State) : Host.Outcome State Fault Refusal := .next (s.memqCommand m node 1 ticket queue)

/-- CLOSE (11 R277): op 2. -/
def execClose (m : Master) (node ticket queue : Nat) (s : State) : Host.Outcome State Fault Refusal := .next (s.memqCommand m node 2 ticket queue)

/-- QUEUE_SYNC (11 R277): op 3. -/
def execQueueSync (m : Master) (node ticket queue : Nat) (s : State) : Host.Outcome State Fault Refusal := .next (s.memqCommand m node 3 ticket queue)

/-- FLUSH (11 R277): op 4. -/
def execFlush (m : Master) (node ticket queue : Nat) (s : State) : Host.Outcome State Fault Refusal := .next (s.memqCommand m node 4 ticket queue)

end Sys2Proof.Machine
end

