-- ==== Sys2Proof/Machine/Memory.lean ====
section
/-! DEFINITION. The meanings of the memory nodes' commands (13). -/
namespace Sys2Proof.Machine

/-- TILE_WRITE (R25, R327): a whole tile with its checksum, charged 5 flits and 8 DRAM units to its account; the host
interface may write less than a tile. -/
def execTileWrite (writer : Agent) (account : Option Nat) (addr : Nat) (data : List Byte) (crc : Nat) (s : State) :
    Host.Outcome State Fault Refusal :=
  let s := match account with
    | none => s
    | some a => s.chargeBytes a data.length
  .next ((if writer = .hif then s.hostWrite addr data else s.arriveTile writer addr data crc).noticeWrite addr data.length)

/-- TILE_READ (R317, R329, R330): a verified read; the host interface sends the tile out, marked poisoned on a failure. -/
def execTileRead (reader : TileReader) (gx gy addr : Nat) (s : State) : Host.Outcome State Fault Refusal :=
  let s := (s.touch addr).request addr false
  let ok := s.verifies addr
  let data := s.tile addr
  let s := if ok then s else s.reportFail reader gx gy addr
  .next (if reader = .other ∧ (gx, gy) = routerOf .hif then s.emit (.hostTile (addr / 512 * 512) data (!ok)) else s)

/-- CHECKSUM_FAILURE_REPORT (R331): the oldest report reaches its node. -/
def execChecksumFailureReport (s : State) : Host.Outcome State Fault Refusal := .next s.takeReport

/-- DRAM_ACCESS (R319, R320, R322, R323): the channel's oldest request is issued. -/
def execDramAccess (node chan : Nat) (s : State) : Host.Outcome State Fault Refusal := .next (s.serveDram (8 * node + chan))

/-- ROW_IDLE_CLOSE (R319): page_idle_ns without an access closes the bank's row. -/
def execRowIdleClose (node chan bank : Nat) (s : State) : Host.Outcome State Fault Refusal :=
  let c := 8 * node + chan
  let x := s.chan c
  match x.rows.get? bank with
  | none => .next s
  | some (_, t) =>
    if s.upNs ≥ t + max 1 (s.get F.MEM_TIMING_page_idle_ns node) then .next (s.setChan c { x with rows := x.rows.del bank })
    else .next s

/-- NEIGHBOUR_REFRESH (R322): the oldest queued neighbour refresh is issued and counted. -/
def execNeighbourRefresh (node chan : Nat) (s : State) : Host.Outcome State Fault Refusal :=
  let c := 8 * node + chan
  let x := s.chan c
  match x.nbr with
  | [] => .next s
  | _ :: rest => .next ((s.setChan c { x with nbr := rest }).count F.MEM_ERR_nbr_ref 1 node)

/-- PARITY_ALERT (R323, R324). -/
def execParityAlert (node chan : Nat) (s : State) : Host.Outcome State Fault Refusal := .next (s.parity (8 * node + chan))

/-- SELF_REFRESH_ENTRY (R325): after sr_idle_us without a request, while sr_idle_us is not 0. -/
def execSelfRefreshEntry (node chan : Nat) (s : State) : Host.Outcome State Fault Refusal :=
  let x := s.chan (8 * node + chan)
  let idle := s.get F.MEM_TIMING_sr_idle_us node * 1000
  if idle ≠ 0 ∧ s.get F.MEM_CHAN_STAT_state node chan = 0 ∧ x.reqs.isEmpty ∧ s.upNs ≥ x.lastReq + idle then
    .next (s.put F.MEM_CHAN_STAT_state 2 node chan)
  else .next s

/-- SELF_REFRESH_EXIT (R325): a waiting request ends self-refresh. -/
def execSelfRefreshExit (node chan : Nat) (s : State) : Host.Outcome State Fault Refusal :=
  if s.get F.MEM_CHAN_STAT_state node chan = 2 ∧ !(s.chan (8 * node + chan)).reqs.isEmpty then
    .next (s.put F.MEM_CHAN_STAT_state 0 node chan)
  else .next s

/-- PER_BANK_REFRESH (R321): a refresh changes nothing that the model holds; a forced one is counted. -/
def execPerBankRefresh (node chan bank : Nat) (forced : Bool) (s : State) : Host.Outcome State Fault Refusal :=
  .next (if forced && decide (chan < 8 ∧ bank < 96) then s.count F.MEM_ERR_forced_ref 1 node else s)

/-- START_TRAINING_END (R318): start-up training ends, with the channels that failed. -/
def execStartTrainingEnd (failed : List Nat) (s : State) : Host.Outcome State Fault Refusal :=
  .next (if s.mem.training then s.endTraining failed else s)

/-- RETRAIN_COMPLETE (R332). -/
def execRetrainComplete (node : Nat) (ok : Bool) (s : State) : Host.Outcome State Fault Refusal := .next (s.endRetrain node ok)

end Sys2Proof.Machine
end

