-- ==== Sys2Proof/Machine/Meridian.lean ====
section
/-! DEFINITION. The meanings of the meridian's commands (02). -/
namespace Sys2Proof.Machine

/-! ### Events of the meridian -/

/-- MERIDIAN_ADVANCE (R43): `cycles` cycles pass. -/
def execMeridianAdvance (cycles : Nat) (s : State) : Host.Outcome State Fault Refusal := .next (s.advance cycles)

/-- OSC_FALLBACK (R41): TIME_OSC_IN stops; the meridian falls back where it is selected. -/
def execOscFallback (s : State) : Host.Outcome State Fault Refusal :=
  let s := { s with mtb := { s.mtb with oscPresent := false } }
  .next (if s.flag F.MTB_CTRL_osc_sel then s.oscFallsBack else s)

/-- Does an accepted write of the same cycle keep the watchdog from expiring: one of MTB_VERNIER, or a relock (R44)? -/
def State.watchdogMet (s : State) : Bool :=
  s.writeMet (fun m a v => s.mayWrite m && (a == RegAddr.addr ⟨.MTB_VERNIER, 0, 0⟩ ||
    (a == RegAddr.addr ⟨.MTB_CTRL, 0, 0⟩ && bit v 2)))

/-- HOLDOVER_WATCHDOG_EXPIRY (R46): LOCKED, auto, and no write to MTB_VERNIER for timeout_ms; a write of the same cycle stands
(R44). -/
def execHoldoverWatchdogExpiry (s : State) : Host.Outcome State Fault Refusal :=
  .next (if s.watchdogDue = false then s else if s.watchdogMet then s.feedWatchdog else s.enterHoldover)

/-- RATE_LEARNING_UPDATE (R47): once per meridian second while LOCKED with learn_en, unless a write skips it (R44). -/
def execRateLearningUpdate (s : State) : Host.Outcome State Fault Refusal :=
  let sec := s.nanos / 10 ^ 9
  if s.get F.MTB_STATUS_state == stLocked && s.flag F.MTB_CTRL_learn_en && s.mtb.learnedSec != sec then
    let s1 := { s with mtb := { s.mtb with learnedSec := sec } }
    if s.mtb.learnSkip then .next s1 else
      let r := signed 40 (s.get F.MTB_RATE_LEARNED_rate_learned)
      let tau := min 12 (s.get F.MTB_HOLD_learn_tau)
      let f := signed 40 (s.get F.MTB_VERNIER_freq_adj)
      .next (s1.put F.MTB_RATE_LEARNED_rate_learned (unsigned 40 (r + (f - r).tdiv (2 ^ tau))))
  else .next s

/-- PPS_OUT_RISE (R60): at each whole second while enabled; low while the interfaces are as in reset (18 R412). -/
def execPpsOutRise (s : State) : Host.Outcome State Fault Refusal :=
  let sec := s.nanos / 10 ^ 9
  if s.flag F.MTB_PPS_out_en && s.mtb.ppsSec != sec && !s.dark then
    .next { s with mtb := { s.mtb with ppsOut := true, ppsSec := sec, ppsFall := s.upNs + s.get F.MTB_PPS_width_ns } }
  else .next s

/-- PPS_OUT_FALL (R60): after width_ns. -/
def execPpsOutFall (s : State) : Host.Outcome State Fault Refusal :=
  if s.mtb.ppsOut && decide (s.upNs ≥ s.mtb.ppsFall) then .next { s with mtb := { s.mtb with ppsOut := false } } else .next s

/-- PPS_IN_EDGE (R60): latches the time unless an edge was latched within the last 500 ms. -/
def execPpsInEdge (s : State) : Host.Outcome State Fault Refusal :=
  let early := match s.mtb.ppsIn with
    | none => false
    | some t => decide (s.upNs < t + 500 * 10 ^ 6)
  if !s.flag F.MTB_PPS_in_en || early then .next s else
    let v := s.nanos / 10 ^ 9 % 2 ^ 16 * 2 ^ 48 + s.nanos % 10 ^ 9 * 2 ^ 16 + s.frac
    .next { s.setReg .MTB_PPS_IN_TS (BitVec.ofNat 64 v) with mtb := { s.mtb with ppsIn := some s.upNs } }

/-- FRAME_OUT_PULSE_END (R59). -/
def execFrameOutPulseEnd (pin : Nat) (s : State) : Host.Outcome State Fault Refusal :=
  match s.mtb.frameOut.get? pin with
  | none => .next s
  | some t => if s.upNs ≥ t then .next { s with mtb := { s.mtb with frameOut := s.mtb.frameOut.del pin } } else .next s

/-! ### Transits -/

/-- FIRING_MESSAGE_ISSUE (R56, R57). -/
def execFiringMessageIssue (i : Nat) (s : State) : Host.Outcome State Fault Refusal := .next (s.issueFiring i)

/-- TRANSIT_FIRE (R55, R58, R59). -/
def execTransitFire (i : Nat) (s : State) : Host.Outcome State Fault Refusal := .next (s.fire i)

/-! ### PTP -/

/-- PTP_RECEIVE (R49, R51): the message is timestamped and pushed to MTB_PTP_QUEUE. -/
def execPtpReceive (port : Nat) (msg : List Byte) (s : State) : Host.Outcome State Fault Refusal :=
  .next (s.pushPtp port (s.rxStamp port) msg)

/-- SYNC_INTERVAL (R49): a master port sends Sync at each multiple of its interval. DESIGN CHOICE (log 29): its sequenceId is the
interval's number mod 2^16. -/
def execSyncInterval (port : Nat) (s : State) : Host.Outcome State Fault Refusal :=
  let n := s.nanos / s.syncPeriod port
  if s.get F.MTB_PTP_PORT_role 0 port = 1 ∧ s.ptpSends port ∧ s.mtb.syncAt.getD port 0 ≠ n then
    let two := s.get F.MTB_PTP_PORT_two_step 0 port
    let seq := n % 2 ^ 16
    let s := { s with mtb := { s.mtb with syncAt := s.mtb.syncAt.put port n } }
    .next (s.ptpQueue port (s.ptpMsg port 0x00 (two * 0x0200) seq (s.get F.MTB_PTP_PORT_sync_log 0 port) (beBytes 8 0) (beBytes 10 0)))
  else .next s

/-- DELAY_RESP (R49): a master port answers a Delay_Req received now, a unicast one to its sender (R50, mixed mode). -/
def execDelayResp (port : Nat) (req : PtpRequest) (s : State) : Host.Outcome State Fault Refusal :=
  if s.get F.MTB_PTP_PORT_role 0 port = 1 ∧ s.ptpAnswers port req.msg then
    let msg := req.msg
    let seq := beNat ((msg.drop 30).take 2)
    let rx := s.rxStamp port
    let corr := beBytes 8 (beNat ((msg.drop 8).take 8) + 2 ^ 64 - rx % 2 ^ 16)
    .next (s.ptpQueue port (s.ptpMsg port 0x09 (bnat req.sender.isSome * 0x0400) seq 0x7F corr (ptpTime rx ++ (msg.drop 20).take 10)) 0 req.sender)
  else .next s

/-- PDELAY_RESP (R49): a peer-to-peer port answers a Pdelay_Req received now, in one step or two: in two the answer holds the
receipt time, its fraction taken from the correctionField, and the request's own correctionField goes into the follow-up. -/
def execPdelayResp (port : Nat) (msg : List Byte) (s : State) : Host.Outcome State Fault Refusal :=
  if s.flag F.MTB_PTP_PORT_p2p 0 port && s.ptpAnswers port msg then
    let two := s.get F.MTB_PTP_PORT_two_step 0 port
    let seq := beNat ((msg.drop 30).take 2)
    let corr := beNat ((msg.drop 8).take 8)
    let rx := s.rxStamp port
    let body := ptpTime (if two = 1 then rx else 0) ++ (msg.drop 20).take 10
    .next (s.ptpQueue port (s.ptpMsg port 0x03 (two * 0x0200) seq 0x7F (beBytes 8 (if two = 1 then 2 ^ 64 - rx % 2 ^ 16 else corr)) body) corr)
  else .next s

end Sys2Proof.Machine
end

