-- ==== Sys2Proof/Machine/Ports.lean ====
section
/-! DEFINITION. The meanings of the ports' commands that are no register writes (12; 02 R59). -/
namespace Sys2Proof.Machine

/-- LINK_UP (R293, R312). -/
def execLinkUp (lg port : Nat) (s : State) : Host.Outcome State Fault Refusal := .next (s.linkUp lg port)

/-- LINK_DOWN (R312). -/
def execLinkDown (lg port : Nat) (s : State) : Host.Outcome State Fault Refusal := .next (s.linkDown lg port)

/-- REFCLK_PRESENT (R293). -/
def execRefclkPresent (lg : Nat) (s : State) : Host.Outcome State Fault Refusal := .next (s.refclkIn lg)

/-- REFCLK_LOSS (R293). -/
def execRefclkLoss (lg : Nat) (s : State) : Host.Outcome State Fault Refusal := .next (s.refclkOut lg)

/-- PORT_FRAME_START (R298, R299). -/
def execPortFrameStart (lg port : Nat) (s : State) : Host.Outcome State Fault Refusal := .next (s.portStart lg port)

/-- GATE_EVENT (R300). -/
def execGateEvent (lg port : Nat) (s : State) : Host.Outcome State Fault Refusal := .next (s.gateEvent lg port)

/-- GATE_LIST_SWITCH (R302). -/
def execGateListSwitch (lg port : Nat) (s : State) : Host.Outcome State Fault Refusal := .next (s.gateSwitch lg port)

/-- TX_ITEM (R304). -/
def execTxItem (lg : Nat) (s : State) : Host.Outcome State Fault Refusal := .next (s.txNext lg)

/-- LAUNCH_RELEASE (R303). -/
def execLaunchRelease (lg port q : Nat) (s : State) : Host.Outcome State Fault Refusal := .next (s.launchRelease lg port q)

/-- LAUNCH_LATE (R303). -/
def execLaunchLate (lg port q : Nat) (s : State) : Host.Outcome State Fault Refusal := .next (s.launchLate lg port q)

/-- The scheduled events of the ports that become known in the cycle of an LPI decision (R305). -/
def State.newlyKnown (s : State) : State :=
  s.sameCycle.foldl (fun (t : State) c => match c with
    | .txItem l => t.txNext l
    | .gateListSwitch l q => t.gateSwitch l q
    | .videoPacketRelease l f => t.videoNext l f
    | .flowPacketHandoff n f => t.flowHandoff n f
    | .firingOpenGateCycle i =>
      match t.mtb.firings.find? (fun f => f.entry == i && f.action == 4) with
      | some f => t.openCycle f
      | none => t
    | _ => t) s

/-- LPI_ENTER (R305). -/
def execLpiEnter (lg port : Nat) (s : State) : Host.Outcome State Fault Refusal := .next (s.lpiEnter lg port s.newlyKnown)

/-- LPI_WAKE (R305). -/
def execLpiWake (lg port : Nat) (s : State) : Host.Outcome State Fault Refusal := .next (s.lpiWake lg port)

/-- LPI_RECEIVED (R305). -/
def execLpiReceived (lg port : Nat) (enter : Bool) (s : State) : Host.Outcome State Fault Refusal := .next (s.lpiIn lg port enter)

/-- VIDEO_PACKET_RELEASE (R307). -/
def execVideoPacketRelease (lg flow : Nat) (s : State) : Host.Outcome State Fault Refusal := .next (s.videoNext lg flow)

/-- FIRING_OPEN_GATE_CYCLE (R300; 02 R59 action 0x4): the firing's message arrives at the port. -/
def execFiringOpenGateCycle (i : Nat) (s : State) : Host.Outcome State Fault Refusal :=
  let p : Firing → Bool := fun f => f.entry == i && f.action == 4
  match s.mtb.firings.find? p with
  | none => .next s
  | some f => .next (({ s with mtb := { s.mtb with firings := dropFirst p s.mtb.firings } }).openCycle f)

/-- FIRING_RELEASE_LAUNCH (R303; 02 R59 action 0x5). -/
def execFiringReleaseLaunch (i : Nat) (s : State) : Host.Outcome State Fault Refusal :=
  match s.takeFiring i 5 with
  | none => .next s
  | some (f, s) => .next (s.launchFired (firingPort f.operand).1 (firingPort f.operand).2 (f.operand % 8))

end Sys2Proof.Machine
end

