-- ==== Sys2Proof/Machine/Queues.lean ====
section
/-! DEFINITION. The meanings of the queue operations (11). -/
namespace Sys2Proof.Machine

/-- A word arrives from a producer, whose operation then no longer travels (R278). -/
def State.pushArrives (s : State) (p : Agent) (q : Nat) (w : Word) (last : Bool) : State :=
  if s.mayArrive p (.push q w last) then
    (match p with
      | .core n => s.arrived n (.push q w last)
      | _ => s).pushWord p q w last
  else s

/-- A pop arrives; it waits where the node has no read buffer for it (R280, R281; log 31). -/
def State.popArrives (s : State) (r : Agent) (q : Nat) : State :=
  if s.popBlocked r q || !s.mayArrive r (.pop q) then s else
    let (st, w, s) := s.popWord r q
    s.answer r (.pop q) st (some w)

/-- A history operation arrives (R283-R285). -/
def State.hArrives (s : State) (r : Agent) (q : Nat) (op : NetOp) (f : Queue → Reg64 × Queue) : State :=
  if s.mayArrive r op then
    let (st, s) := s.hOp q f
    s.answer r op st none
  else s

/-- A flush arrives (R286). -/
def State.flushArrives (s : State) (r : Agent) (q : Nat) : State :=
  if s.mayArrive r (.flush q) then
    let (st, s) := s.flushQueue q
    s.answer r (.flush q) st none
  else s

/-! ### One cycle of a queue (R279, R287) -/

/-- The queue of an operation and its place in a cycle: flush, words, release, pop, commit; QMARK and QREWIND count as a pop. -/
def queueRank : Instr → Option (Nat × Nat)
  | .qflush _ q => some (q, 0)
  | .qpush _ q _ _ => some (q, 1)
  | .qrelease _ q _ => some (q, 2)
  | .qpop _ q => some (q, 3)
  | .qmark _ q _ => some (q, 3)
  | .qrewind _ q _ => some (q, 3)
  | .itemCommit q => some (q, 4)
  | _ => none

/-- The rank of an operation if it is one of queue `q`. -/
def rankIn (q : Nat) (c : Instr) : Option Nat := (queueRank c).bind (fun r => if r.1 = q then some r.2 else none)

/-- Does a cycle of queue `q` end before this operation: a second commit or a second pop (R279)? -/
def beyondCycle (q : Nat) (seen : List Instr) (c : Instr) : Bool :=
  match c with
  | .itemCommit k => k == q && seen.contains c
  | .qpop _ k => k == q && seen.any (fun d => match d with
    | .qpop _ j => j == q
    | _ => false)
  | _ => false

/-- The operations on queue `q` among waiting commands that meet those in `seen` in one cycle. -/
def restOfCycle (q : Nat) : List Instr → List Instr → List Instr
  | _, [] => []
  | seen, c :: l =>
    if beyondCycle q seen c then []
    else if (rankIn q c).isSome then c :: restOfCycle q (c :: seen) l else restOfCycle q seen l

/-- An operation of a queue evaluated. -/
def State.queueOp (s : State) : Instr → State
  | .qpush p q w l => s.pushArrives p q w l
  | .itemCommit q => s.commit q
  | .qpop r q => s.popArrives r q
  | .qmark r q k => s.hArrives r q (.mark q k) (·.doMark k)
  | .qrewind r q k => s.hArrives r q (.rewind q k) (·.doRewind k)
  | .qrelease r q flags => s.hArrives r q (.release q flags) (·.doRelease flags)
  | .qflush r q => s.flushArrives r q
  | _ => s

/-- The operations of queue `q` that wait for others of their cycle. -/
def State.deferredOn (s : State) (q : Nat) : List Instr := s.mem.deferred.filter (fun c => (rankIn q c).isSome)

/-- The operations of queue `q` held back set. -/
def State.setDeferred (s : State) (q : Nat) (l : List Instr) : State :=
  { s with mem := { s.mem with deferred := s.mem.deferred.filter (fun c => (rankIn q c).isNone) ++ l } }

/-- An operation on queue `q` meets its cycle: evaluated with those held back once none before it in the order of R287 is to come. -/
def State.inCycle (s : State) (c : Instr) : State :=
  match queueRank c with
  | none => s
  | some (q, _) =>
    let held := s.deferredOn q ++ [c]
    let later := restOfCycle q held s.sameCycle
    let due (d : Instr) : Bool := !later.any (fun e => decide ((rankIn q e).getD 0 < (rankIn q d).getD 0))
    let run := (List.range 5).flatMap (fun k => held.filter (fun d => due d && rankIn q d == some k))
    run.foldl (fun (s : State) d => s.queueOp d) (s.setDeferred q (held.filter (fun d => !due d)))

/-- QPUSH (R278, R279). -/
def execQpush (producer : Agent) (queue : Nat) (word : Word) (last : Bool) (s : State) : Host.Outcome State Fault Refusal :=
  .next (s.inCycle (.qpush producer queue word last))

/-- ITEM_COMMIT (R279, R282; 15 R353). -/
def execItemCommit (queue : Nat) (s : State) : Host.Outcome State Fault Refusal := .next (s.inCycle (.itemCommit queue))

/-- QPOP (R280, R281). -/
def execQpop (reader : Agent) (queue : Nat) (s : State) : Host.Outcome State Fault Refusal := .next (s.inCycle (.qpop reader queue))

/-- QMARK (R283). -/
def execQmark (reader : Agent) (queue k : Nat) (s : State) : Host.Outcome State Fault Refusal :=
  .next (s.inCycle (.qmark reader queue k))

/-- QREWIND (R284). -/
def execQrewind (reader : Agent) (queue k : Nat) (s : State) : Host.Outcome State Fault Refusal :=
  .next (s.inCycle (.qrewind reader queue k))

/-- QRELEASE (R285). -/
def execQrelease (reader : Agent) (queue flags : Nat) (s : State) : Host.Outcome State Fault Refusal :=
  .next (s.inCycle (.qrelease reader queue flags))

/-- QFLUSH (R286). -/
def execQflush (reader : Agent) (queue : Nat) (s : State) : Host.Outcome State Fault Refusal := .next (s.inCycle (.qflush reader queue))

end Sys2Proof.Machine
end

