-- ==== Sys2Proof/Machine/Registers.lean ====
section
/-! DEFINITION. The meanings of register accesses and of the meridian's register commands (00, 01, 02). -/
namespace Sys2Proof.Machine

/-! ### Register accesses (00 R10-R13; 01 R31, R33) -/

/-- REGISTER_WRITE (00 R12, R13; 17 R387, R388): any register of the window, with the effect of its own rules. -/
def execRegisterWrite (m : Master) (addr : Nat) (v : Reg64) (s : State) : Host.Outcome State Fault Refusal := .next (s.regWrite m addr v)

/-- CLEARING_READ (00 R12; 17 R387). -/
def execClearingRead (m : Master) (addr : Nat) (s : State) : Host.Outcome State Fault Refusal := .next (s.regRead m addr)

/-- UNMAPPED_ACCESS (00 R10). -/
def execUnmappedAccess (m : Master) (write : Bool) (addr : Nat) (v : Reg64) (s : State) : Host.Outcome State Fault Refusal :=
  .next (if write then s.regWrite m addr v else s.regRead m addr)

/-- MISALIGNED_ACCESS (00 R11). -/
def execMisalignedAccess (m : Master) (write : Bool) (addr size : Nat) (v : Reg64) (s : State) : Host.Outcome State Fault Refusal :=
  .next (s.access m write addr size v)

/-- STN_MAP_WRITE (01 R31). -/
def execStnMapWrite (m : Master) (n : Nat) (v : Reg64) (s : State) : Host.Outcome State Fault Refusal := .next (s.writeTo m .DEV_STN_MAP v 0 n)

/-! ### The meridian (02) -/

/-- OSC_SEL_WRITE (R41): a write of MTB_CTRL, with or without a signal on TIME_OSC_IN at that moment. -/
def execOscSelWrite (m : Master) (present : Bool) (v : Reg64) (s : State) : Host.Outcome State Fault Refusal :=
  .next (({ s with mtb := { s.mtb with oscPresent := present } } : State).writeTo m .MTB_CTRL v)

/-- LOCK (R42): a write of MTB_CTRL with lock set. -/
def execLock (m : Master) (v : Reg64) (s : State) : Host.Outcome State Fault Refusal := .next (s.writeTo m .MTB_CTRL (v ||| 1))

/-- HOLDOVER (R42, R46): a write of MTB_CTRL with holdover set. -/
def execHoldover (m : Master) (v : Reg64) (s : State) : Host.Outcome State Fault Refusal := .next (s.writeTo m .MTB_CTRL (v ||| 2))

/-- RELOCK (R42, R48): a write of MTB_CTRL with relock set. -/
def execRelock (m : Master) (v : Reg64) (s : State) : Host.Outcome State Fault Refusal := .next (s.writeTo m .MTB_CTRL (v ||| 4))

/-- RUN (R53): a write of MTB_CTRL with run set. -/
def execRun (m : Master) (v : Reg64) (s : State) : Host.Outcome State Fault Refusal := .next (s.writeTo m .MTB_CTRL (v ||| 0x80))

/-- VERNIER_WRITE (R44, R46). -/
def execVernierWrite (m : Master) (v : Reg64) (s : State) : Host.Outcome State Fault Refusal := .next (s.writeTo m .MTB_VERNIER v)

/-- SET (R45): the write of MTB_SET_NS. -/
def execSet (m : Master) (v : Reg64) (s : State) : Host.Outcome State Fault Refusal := .next (s.writeTo m .MTB_SET_NS v)

/-- TIME_SEC_READ (R61). -/
def execTimeSecRead (m : Master) (s : State) : Host.Outcome State Fault Refusal := .next (s.readFrom m .MTB_TIME_SEC)

/-- RASTER_ENABLE (R53): a write of MTB_RASTER_RATE[k] with en set. -/
def execRasterEnable (m : Master) (k : Nat) (v : Reg64) (s : State) : Host.Outcome State Fault Refusal :=
  .next (s.writeTo m .MTB_RASTER_RATE (v ||| 0x8000000000000000) 0 k)

/-- TRANSIT_ENTRY_WRITE (R55, R58): `which` 0 is MTB_TRN_CTRL[i], 1 MTB_TRN_WHEN[i], any other MTB_TRN_ACT[i]. -/
def execTransitEntryWrite (m : Master) (i which : Nat) (v : Reg64) (s : State) : Host.Outcome State Fault Refusal :=
  .next (s.writeTo m (if which = 0 then .MTB_TRN_CTRL else if which = 1 then .MTB_TRN_WHEN else .MTB_TRN_ACT) v 0 i)

end Sys2Proof.Machine
end

