-- ==== Sys2Proof/Machine/Security.lean ====
section
/-! DEFINITION. The meanings of the security node's and the cipher engines' commands (14). -/
namespace Sys2Proof.Machine

/-- KEY_CMD_COMPLETE (R338, R339). -/
def execKeyCmdComplete (s : State) : Host.Outcome State Fault Refusal := .next s.keyComplete

/-- CLAIM (R341): the request at the head of SEC_REQ_QUEUE's queue, unless it is a release. -/
def execClaim (s : State) : Host.Outcome State Fault Refusal := .next (s.serveRequest (· != 2))

/-- RELEASE (R341): the release at the head of SEC_REQ_QUEUE's queue. -/
def execRelease (s : State) : Host.Outcome State Fault Refusal := .next (s.serveRequest (· == 2))

/-- LOCK_AUTO_RELEASE (R342). -/
def execLockAutoRelease (e : Nat) (s : State) : Host.Outcome State Fault Refusal :=
  .next (if s.lockLapsed e then s.freeLock e else s)

/-- GCM_ENCRYPT (R343): op 1, and the ops that no engine knows. -/
def execGcmEncrypt (e : Nat) (s : State) : Host.Outcome State Fault Refusal :=
  .next (s.takeJob e (fun op => op == 1 || op == 0 || decide (op > 4)))

/-- GCM_DECRYPT (R343). -/
def execGcmDecrypt (e : Nat) (s : State) : Host.Outcome State Fault Refusal := .next (s.takeJob e (· == 2))

/-- CTR (R343). -/
def execCtr (e : Nat) (s : State) : Host.Outcome State Fault Refusal := .next (s.takeJob e (· == 3))

/-- HMAC_SHA1 (R343). -/
def execHmacSha1 (e : Nat) (s : State) : Host.Outcome State Fault Refusal := .next (s.takeJob e (· == 4))

/-- CIPHER_JOB_COMPLETE (R343). -/
def execCipherJobComplete (e : Nat) (s : State) : Host.Outcome State Fault Refusal := .next (s.jobComplete e)

/-- DRBG_RESEED (R346). -/
def execDrbgReseed (healthy : Bool) (s : State) : Host.Outcome State Fault Refusal := .next (s.reseed healthy)

/-- RNG_STALE (R346): 10 s without a reseed. -/
def execRngStale (s : State) : Host.Outcome State Fault Refusal :=
  if s.upNs ≥ s.sec.reseedAt + 10 * 10 ^ 9 then .next (s.put F.SEC_STATUS_rng_stale 1) else .next s

/-- ALARM (R347-R349). -/
def execAlarm (bit : Nat) (s : State) : Host.Outcome State Fault Refusal := .next (s.alarm bit)

end Sys2Proof.Machine
end

