-- ==== Sys2Proof/Machine/System.lean ====
section
/-! DEFINITION. The meanings of the reset, start-up and power commands (18). -/
namespace Sys2Proof.Machine

/-! ### Reset and boot (18 R406-R412) -/

/-- PORST_ASSERT (R406, R412). -/
def execPorstAssert (s : State) : Host.Outcome State Fault Refusal := .next (s.porstDown)

/-- PORST_RELEASE (R411). -/
def execPorstRelease (s : State) : Host.Outcome State Fault Refusal := .next (s.porstUp)

/-- SYSRST_ASSERT (R407). -/
def execSysrstAssert (s : State) : Host.Outcome State Fault Refusal := .next (s.sysrstDown)

/-- SYSRST_RELEASE (R407). -/
def execSysrstRelease (s : State) : Host.Outcome State Fault Refusal := .next (s.sysrstUp)

/-- BOOT_IMAGE_CHECK (R408, R409). -/
def execBootImageCheck (s : State) : Host.Outcome State Fault Refusal := .next (s.bootCheck)

/-- PCIE_LINK_UP (R412; 15 R363). -/
def execPcieLinkUp (hif : Nat) (s : State) : Host.Outcome State Fault Refusal := .next (s.pcieUp hif)

/-! ### ALIVE, the twin, PWRFAIL_N (18 R413, R414) -/

/-- ALIVE_KICK (R413): a write of PWR_ALIVE with kick set. -/
def execAliveKick (m : Master) (v : Reg64) (s : State) : Host.Outcome State Fault Refusal := .next (s.writeTo m .PWR_ALIVE (v ||| 0x8000000000000000))

/-- ALIVE_TOGGLE (R413). -/
def execAliveToggle (s : State) : Host.Outcome State Fault Refusal := .next (s.aliveToggle)

/-- Does an accepted kick come in the present cycle (R413)? -/
def State.kickMet (s : State) : Bool := s.writeMet (fun m a v => a == RegAddr.addr ⟨.PWR_ALIVE, 0, 0⟩ && bit v 63 && s.mayWrite m)

/-- ALIVE_EXPIRY (R413): a kick of the same cycle counts. -/
def execAliveExpiry (s : State) : Host.Outcome State Fault Refusal := .next (if s.kickMet then s else s.aliveExpiry)

/-- TWIN_ALIVE_EDGE (R413). -/
def execTwinAliveEdge (s : State) : Host.Outcome State Fault Refusal := .next (s.twinEdge)

/-- TWIN_ALIVE_TIMEOUT (R413). -/
def execTwinAliveTimeout (s : State) : Host.Outcome State Fault Refusal := .next (s.twinTimeout)

/-- PWRFAIL_FALL (R414; 16 R379). -/
def execPwrfailFall (s : State) : Host.Outcome State Fault Refusal := .next (s.pwrFail)

/-! ### Regulators, power, temperature (18 R415-R419) -/

/-- REGULATOR_POLL (R415): each rail's answer, none where a read is missed. -/
def execRegulatorPoll (answers : List (Option (Nat × Nat))) (s : State) : Host.Outcome State Fault Refusal := .next (s.pollRails answers)

/-- AVS_UPDATE (R416): `target` is the node's choice, mV. -/
def execAvsUpdate (target : Nat) (s : State) : Host.Outcome State Fault Refusal := .next (s.avsUpdate target)

/-- POWER_ESTIMATE (R417): `e` is the estimate, W. -/
def execPowerEstimate (e : Nat) (s : State) : Host.Outcome State Fault Refusal := .next (s.estimate e)

/-- POWER_GATE (R418). -/
def execPowerGate (kind : UnitKind) (index : Nat) (s : State) : Host.Outcome State Fault Refusal := .next (s.powerGate kind index)

/-- POWER_WAKE (R418). -/
def execPowerWake (kind : UnitKind) (index : Nat) (s : State) : Host.Outcome State Fault Refusal := .next (s.powerWake kind index)

/-- THERMAL_WARN (R419): `hot` is the hottest sensor, °C. -/
def execThermalWarn (hot : Nat) (s : State) : Host.Outcome State Fault Refusal := .next (s.thermalWarn hot)

/-- THERMAL_CAP_STEP (R419). -/
def execThermalCapStep (hot : Nat) (s : State) : Host.Outcome State Fault Refusal := .next (s.thermalStep hot)

/-- THERMTRIP (R419). -/
def execThermtrip (hot : Nat) (s : State) : Host.Outcome State Fault Refusal := .next (s.thermTrip hot)

end Sys2Proof.Machine
end

