-- ==== Sys2Proof/Machine/Tasks.lean ====
section
/-! DEFINITION. The meanings of the dispatcher's commands (10; 02 R54). -/
namespace Sys2Proof.Machine

/-! ### Accounts (10 R258-R264) -/

/-- ACCOUNT_CHARGE (R258-R263): currency 0 signal-core cycles, 1 codec-core cycles, 2 graticule flits, 3 DRAM units. -/
def execAccountCharge (account currency amount : Nat) (s : State) : Host.Outcome State Fault Refusal := .next (s.charge account currency amount)

/-- EXHAUSTION_NEWS (R263): the consumer receives the next news. -/
def execExhaustionNews (consumer : Agent) (s : State) : Host.Outcome State Fault Refusal := .next (s.hear consumer)

/-- TICK_BOUNDARY (R262; 02 R54): the next boundary, once its time has come. -/
def execTickBoundary (s : State) : Host.Outcome State Fault Refusal := .next (if s.tickDue then s.tickBoundary else s)

/-! ### Tasks (10 R265-R270) -/

/-- A TREADY at the dispatcher, answered to the core that issued it (R268). -/
def State.readyArrives (s : State) (core : Option Nat) (rec : Nat) : State :=
  match core with
  | some n =>
    if s.mayArrive (.core n) (.tready rec) then
      let (st, s) := s.tready rec s.mtime
      s.answer (.core n) (.tready rec) (statusWord st) none
    else s
  | none => (s.tready rec s.mtime).2

/-- A TCANCEL at the dispatcher, answered likewise (R269). -/
def State.cancelArrives (s : State) (core : Option Nat) (rec : Nat) : State :=
  match core with
  | some n =>
    if s.mayArrive (.core n) (.tcancel rec) then
      let (st, s) := s.tcancel rec
      s.answer (.core n) (.tcancel rec) (statusWord st) none
    else s
  | none => (s.tcancel rec).2

/-- A TREADY and a TCANCEL that meet in one cycle: the cancel wins, both receive 0x04 (R269). -/
def State.cancelMeets (s : State) (core : Option Nat) (rec : Nat) : State :=
  let s := s.recState rec 7
  let s := match s.cores.find? (fun e => s.mayArrive (.core e.1) (.tready rec)) with
    | some (k, _) => s.answer (.core k) (.tready rec) (statusWord 0x04) none
    | none => s
  match core with
  | some n => s.answer (.core n) (.tcancel rec) (statusWord 0x04) none
  | none => s

/-- TASK_READY (R268). -/
def execTaskReady (core : Option Nat) (rec : Nat) (s : State) : Host.Outcome State Fault Refusal := .next (s.readyArrives core rec)

/-- TASK_CANCEL (R269); `meetsReady`: a TREADY for the record arrives in the same cycle, and finds it not held. -/
def execTaskCancel (core : Option Nat) (rec : Nat) (meetsReady : Bool) (s : State) : Host.Outcome State Fault Refusal :=
  .next (if meetsReady && !s.dis.tasks.any (fun t => t.record == rec) && core.all (fun n => s.mayArrive (.core n) (.tcancel rec)) then
    s.cancelMeets core rec else s.cancelArrives core rec)

/-- SLOT_FILL (R267). -/
def execSlotFill (s : State) : Host.Outcome State Fault Refusal := .next (s.fillSlot)

/-- TASK_START (R267; 09 R253). -/
def execTaskStart (core : Nat) (s : State) : Host.Outcome State Fault Refusal := .next (s.taskStart core)

/-- TASK_END (R265). -/
def execTaskEnd (core : Nat) (s : State) : Host.Outcome State Fault Refusal := .next (s.taskEnd core)

/-- FIRING_START_TASK_SET (R270; 02 R59 action 0x2). -/
def execFiringStartTaskSet (i : Nat) (s : State) : Host.Outcome State Fault Refusal :=
  let p : Firing → Bool := fun f => f.entry == i && f.action == 2
  match s.mtb.firings.find? p with
  | none => .next s
  | some f => .next (({ s with mtb := { s.mtb with firings := dropFirst p s.mtb.firings } } : State).startSet (f.operand % 4096) f.trigger f.late)

/-! ### Units in and out of service (10 R271, R272, R274) -/

/-- A unit command written to DIS_UNIT_CMD; `begun` are the tiles whose write a halted unit had begun. -/
def State.unitCommand (s : State) (m : Master) (op ticket : Nat) (kind : UnitKind) (index : Nat) (begun : List Nat) : State :=
  s.regWriteWith begun m (RegAddr.addr ⟨.DIS_UNIT_CMD, 0, 0⟩)
    (BitVec.ofNat 64 (op % 4 * 2 ^ 62 + kindCode kind * 2 ^ 60 + ticket % 256 * 2 ^ 52 + index % 128))

/-- DRAIN (R271): op 1. -/
def execDrain (m : Master) (ticket : Nat) (kind : UnitKind) (index : Nat) (s : State) : Host.Outcome State Fault Refusal :=
  .next (s.unitCommand m 1 ticket kind index [])

/-- HALT (R271, R272): op 2. -/
def execHalt (m : Master) (ticket : Nat) (kind : UnitKind) (index : Nat) (begun : List Nat) (s : State) : Host.Outcome State Fault Refusal :=
  .next (s.unitCommand m 2 ticket kind index begun)

/-- RESUME (R271): op 3. -/
def execResume (m : Master) (ticket : Nat) (kind : UnitKind) (index : Nat) (s : State) : Host.Outcome State Fault Refusal :=
  .next (s.unitCommand m 3 ticket kind index [])

/-- UNIT_DRAINED (R271). -/
def execUnitDrained (kind : UnitKind) (index : Nat) (s : State) : Host.Outcome State Fault Refusal := .next (s.unitDrained kind index)

/-- LIST_CONFIG_WRITE (R274). -/
def execListConfigWrite (m : Master) (l : Nat) (v : Reg64) (s : State) : Host.Outcome State Fault Refusal := .next (s.writeTo m .DIS_LIST_CFG v 0 l)

end Sys2Proof.Machine
end

