-- ==== Sys2Proof/Machine/Dispatch.lean ====
section
/-! DEFINITION. The meaning of every command: one arm for each constructor of Instr, each a direct call of its own definition. -/
namespace Sys2Proof.Machine

/-- The effect of a command on everything but the queue of waiting commands (95: what each step holds). -/
def exec (i : Instr) (s : State) : Host.Outcome State Fault Refusal :=
  match i with
  | .registerWrite m addr v => Sys2Proof.Machine.execRegisterWrite m addr v s
  | .clearingRead m addr => Sys2Proof.Machine.execClearingRead m addr s
  | .unmappedAccess m write addr v => Sys2Proof.Machine.execUnmappedAccess m write addr v s
  | .misalignedAccess m write addr size v => Sys2Proof.Machine.execMisalignedAccess m write addr size v s
  | .stnMapWrite m n v => Sys2Proof.Machine.execStnMapWrite m n v s
  | .meridianAdvance cycles => Sys2Proof.Machine.execMeridianAdvance cycles s
  | .oscFallback => Sys2Proof.Machine.execOscFallback s
  | .oscSelWrite m present v => Sys2Proof.Machine.execOscSelWrite m present v s
  | .lock m v => Sys2Proof.Machine.execLock m v s
  | .holdover m v => Sys2Proof.Machine.execHoldover m v s
  | .relock m v => Sys2Proof.Machine.execRelock m v s
  | .run m v => Sys2Proof.Machine.execRun m v s
  | .vernierWrite m v => Sys2Proof.Machine.execVernierWrite m v s
  | .holdoverWatchdogExpiry => Sys2Proof.Machine.execHoldoverWatchdogExpiry s
  | .rateLearningUpdate => Sys2Proof.Machine.execRateLearningUpdate s
  | .set m v => Sys2Proof.Machine.execSet m v s
  | .timeSecRead m => Sys2Proof.Machine.execTimeSecRead m s
  | .ptpReceive port msg => Sys2Proof.Machine.execPtpReceive port msg s
  | .syncInterval port => Sys2Proof.Machine.execSyncInterval port s
  | .delayResp port msg => Sys2Proof.Machine.execDelayResp port msg s
  | .pdelayResp port msg => Sys2Proof.Machine.execPdelayResp port msg s
  | .rasterEnable m k v => Sys2Proof.Machine.execRasterEnable m k v s
  | .tickBoundary => Sys2Proof.Machine.execTickBoundary s
  | .transitEntryWrite m entry which v => Sys2Proof.Machine.execTransitEntryWrite m entry which v s
  | .firingMessageIssue entry => Sys2Proof.Machine.execFiringMessageIssue entry s
  | .transitFire entry => Sys2Proof.Machine.execTransitFire entry s
  | .frameOutPulseEnd pin => Sys2Proof.Machine.execFrameOutPulseEnd pin s
  | .firingCommitCanvas entry => Sys2Proof.Machine.execFiringCommitCanvas entry s
  | .firingStartTaskSet entry => Sys2Proof.Machine.execFiringStartTaskSet entry s
  | .firingOpenGateCycle entry => Sys2Proof.Machine.execFiringOpenGateCycle entry s
  | .firingReleaseLaunch entry => Sys2Proof.Machine.execFiringReleaseLaunch entry s
  | .ppsOutRise => Sys2Proof.Machine.execPpsOutRise s
  | .ppsOutFall => Sys2Proof.Machine.execPpsOutFall s
  | .ppsInEdge => Sys2Proof.Machine.execPpsInEdge s
  | .frameReceive lg port bytes fcsGood => Sys2Proof.Machine.execFrameReceive lg port bytes fcsGood s
  | .ingressPipeline lg => Sys2Proof.Machine.execIngressPipeline lg s
  | .bufRet m lg v => Sys2Proof.Machine.execBufRet m lg v s
  | .insert m ticket stream => Sys2Proof.Machine.execInsert m ticket stream s
  | .delete m ticket stream => Sys2Proof.Machine.execDelete m ticket stream s
  | .update m ticket stream => Sys2Proof.Machine.execUpdate m ticket stream s
  | .flowSync m ticket stream => Sys2Proof.Machine.execFlowSync m ticket stream s
  | .flowCmdComplete => Sys2Proof.Machine.execFlowCmdComplete s
  | .stopLeg m ticket index => Sys2Proof.Machine.execStopLeg m ticket index s
  | .restartLeg m ticket index => Sys2Proof.Machine.execRestartLeg m ticket index s
  | .blockStream m ticket index => Sys2Proof.Machine.execBlockStream m ticket index s
  | .unblockStream m ticket index => Sys2Proof.Machine.execUnblockStream m ticket index s
  | .stopApply lg => Sys2Proof.Machine.execStopApply lg s
  | .stopSweepDone lg => Sys2Proof.Machine.execStopSweepDone lg s
  | .stopComplete => Sys2Proof.Machine.execStopComplete s
  | .recordWriteback kind idx => Sys2Proof.Machine.execRecordWriteback kind idx s
  | .policerConfigWrite m lg entry which v => Sys2Proof.Machine.execPolicerConfigWrite m lg entry which v s
  | .localPacketIntake lg => Sys2Proof.Machine.execLocalPacketIntake lg s
  | .replicationWalk lg => Sys2Proof.Machine.execReplicationWalk lg s
  | .copyEnqueue lg => Sys2Proof.Machine.execCopyEnqueue lg s
  | .select m lg ticket sp t index => Sys2Proof.Machine.execSelect m lg ticket sp t index s
  | .refresh m lg ticket index => Sys2Proof.Machine.execRefresh m lg ticket index s
  | .clear m lg ticket index => Sys2Proof.Machine.execClear m lg ticket index s
  | .reloadLeg m lg ticket index => Sys2Proof.Machine.execReloadLeg m lg ticket index s
  | .reloadRoom m lg ticket index => Sys2Proof.Machine.execReloadRoom m lg ticket index s
  | .selCmdComplete lg => Sys2Proof.Machine.execSelCmdComplete lg s
  | .retransmitRequest lg => Sys2Proof.Machine.execRetransmitRequest lg s
  | .bufferHoldExpiry buf => Sys2Proof.Machine.execBufferHoldExpiry buf s
  | .bufferRelease buf => Sys2Proof.Machine.execBufferRelease buf s
  | .classShaperWrite m lg entry which v => Sys2Proof.Machine.execClassShaperWrite m lg entry which v s
  | .jobTake core => Sys2Proof.Machine.execJobTake core s
  | .startByExpiry core queue => Sys2Proof.Machine.execStartByExpiry core queue s
  | .decodeComplete core f => Sys2Proof.Machine.execDecodeComplete core f s
  | .codecBudgetPause core => Sys2Proof.Machine.execCodecBudgetPause core s
  | .encodePreempt core => Sys2Proof.Machine.execEncodePreempt core s
  | .encodePacketOut core p => Sys2Proof.Machine.execEncodePacketOut core p s
  | .encodeComplete core f => Sys2Proof.Machine.execEncodeComplete core f s
  | .commitRequest m cmp v => Sys2Proof.Machine.execCommitRequest m cmp v s
  | .insetShadowWrite m cmp c entry which v => Sys2Proof.Machine.execInsetShadowWrite m cmp c entry which v s
  | .latchPoint cmp c => Sys2Proof.Machine.execLatchPoint cmp c s
  | .frameComposed cmp c => Sys2Proof.Machine.execFrameComposed cmp c s
  | .frameDeadlineMiss cmp c => Sys2Proof.Machine.execFrameDeadlineMiss cmp c s
  | .outputLatch node port => Sys2Proof.Machine.execOutputLatch node port s
  | .outputBufferReturn node port => Sys2Proof.Machine.execOutputBufferReturn node port s
  | .inputBlockBoundary node port => Sys2Proof.Machine.execInputBlockBoundary node port s
  | .inputBlockPush node port samples => Sys2Proof.Machine.execInputBlockPush node port samples s
  | .flowLatch node f => Sys2Proof.Machine.execFlowLatch node f s
  | .flowPacketHandoff node f => Sys2Proof.Machine.execFlowPacketHandoff node f s
  | .audioPortEnable m node port v => Sys2Proof.Machine.execAudioPortEnable m node port v s
  | .audioPortStop m node port v => Sys2Proof.Machine.execAudioPortStop m node port v s
  | .routeWrite m node port v => Sys2Proof.Machine.execRouteWrite m node port v s
  | .maskWrite m node port v => Sys2Proof.Machine.execMaskWrite m node port v s
  | .portLock node port ratio => Sys2Proof.Machine.execPortLock node port ratio s
  | .portUnlock node port ratio => Sys2Proof.Machine.execPortUnlock node port ratio s
  | .csBlockReceive node port ch0 ch1 => Sys2Proof.Machine.execCsBlockReceive node port ch0 ch1 s
  | .flowEnable m node f v => Sys2Proof.Machine.execFlowEnable m node f v s
  | .bundleExecute core b => Sys2Proof.Machine.execBundleExecute core b s
  | .sync core => Sys2Proof.Machine.execSync core s
  | .dramLoadReply core => Sys2Proof.Machine.execDramLoadReply core s
  | .interruptEntry core => Sys2Proof.Machine.execInterruptEntry core s
  | .postedAck core => Sys2Proof.Machine.execPostedAck core s
  | .queueReply core => Sys2Proof.Machine.execQueueReply core s
  | .move core => Sys2Proof.Machine.execMove core s
  | .moveComplete core => Sys2Proof.Machine.execMoveComplete core s
  | .accountCharge account currency amount => Sys2Proof.Machine.execAccountCharge account currency amount s
  | .exhaustionNews consumer => Sys2Proof.Machine.execExhaustionNews consumer s
  | .taskReady core rec => Sys2Proof.Machine.execTaskReady core rec s
  | .taskCancel core rec meetsReady => Sys2Proof.Machine.execTaskCancel core rec meetsReady s
  | .slotFill => Sys2Proof.Machine.execSlotFill s
  | .taskStart core => Sys2Proof.Machine.execTaskStart core s
  | .taskEnd core => Sys2Proof.Machine.execTaskEnd core s
  | .drain m ticket kind index => Sys2Proof.Machine.execDrain m ticket kind index s
  | .halt m ticket kind index begun => Sys2Proof.Machine.execHalt m ticket kind index begun s
  | .resume m ticket kind index => Sys2Proof.Machine.execResume m ticket kind index s
  | .unitDrained kind index => Sys2Proof.Machine.execUnitDrained kind index s
  | .listConfigWrite m l v => Sys2Proof.Machine.execListConfigWrite m l v s
  | .qpush producer queue word last => Sys2Proof.Machine.execQpush producer queue word last s
  | .itemCommit queue => Sys2Proof.Machine.execItemCommit queue s
  | .qpop reader queue => Sys2Proof.Machine.execQpop reader queue s
  | .qmark reader queue k => Sys2Proof.Machine.execQmark reader queue k s
  | .qrewind reader queue k => Sys2Proof.Machine.execQrewind reader queue k s
  | .qrelease reader queue flags => Sys2Proof.Machine.execQrelease reader queue flags s
  | .qflush reader queue => Sys2Proof.Machine.execQflush reader queue s
  | .openQueue m node ticket queue => Sys2Proof.Machine.execOpenQueue m node ticket queue s
  | .close m node ticket queue => Sys2Proof.Machine.execClose m node ticket queue s
  | .queueSync m node ticket queue => Sys2Proof.Machine.execQueueSync m node ticket queue s
  | .flush m node ticket queue => Sys2Proof.Machine.execFlush m node ticket queue s
  | .linkPortEnable m lg port v => Sys2Proof.Machine.execLinkPortEnable m lg port v s
  | .linkPortDisable m lg port v => Sys2Proof.Machine.execLinkPortDisable m lg port v s
  | .linkUp lg port => Sys2Proof.Machine.execLinkUp lg port s
  | .linkDown lg port => Sys2Proof.Machine.execLinkDown lg port s
  | .refclkPresent lg => Sys2Proof.Machine.execRefclkPresent lg s
  | .refclkLoss lg => Sys2Proof.Machine.execRefclkLoss lg s
  | .portFrameStart lg port => Sys2Proof.Machine.execPortFrameStart lg port s
  | .gateEvent lg port => Sys2Proof.Machine.execGateEvent lg port s
  | .gateListChange m lg port v => Sys2Proof.Machine.execGateListChange m lg port v s
  | .gateListSwitch lg port => Sys2Proof.Machine.execGateListSwitch lg port s
  | .txItem lg => Sys2Proof.Machine.execTxItem lg s
  | .launchRelease lg port q => Sys2Proof.Machine.execLaunchRelease lg port q s
  | .launchLate lg port q => Sys2Proof.Machine.execLaunchLate lg port q s
  | .lpiEnter lg port => Sys2Proof.Machine.execLpiEnter lg port s
  | .lpiWake lg port => Sys2Proof.Machine.execLpiWake lg port s
  | .packetiserEnable m lg ticket flow => Sys2Proof.Machine.execPacketiserEnable m lg ticket flow s
  | .packetiserDisable m lg ticket flow => Sys2Proof.Machine.execPacketiserDisable m lg ticket flow s
  | .packetiserReload m lg ticket flow => Sys2Proof.Machine.execPacketiserReload m lg ticket flow s
  | .videoPacketRelease lg flow => Sys2Proof.Machine.execVideoPacketRelease lg flow s
  | .tileWrite writer account addr data crc => Sys2Proof.Machine.execTileWrite writer account addr data crc s
  | .tileRead reader gx gy addr => Sys2Proof.Machine.execTileRead reader gx gy addr s
  | .checksumFailureReport => Sys2Proof.Machine.execChecksumFailureReport s
  | .dramAccess node chan => Sys2Proof.Machine.execDramAccess node chan s
  | .rowIdleClose node chan bank => Sys2Proof.Machine.execRowIdleClose node chan bank s
  | .neighbourRefresh node chan => Sys2Proof.Machine.execNeighbourRefresh node chan s
  | .parityAlert node chan => Sys2Proof.Machine.execParityAlert node chan s
  | .selfRefreshEntry node chan => Sys2Proof.Machine.execSelfRefreshEntry node chan s
  | .selfRefreshExit node chan => Sys2Proof.Machine.execSelfRefreshExit node chan s
  | .bandWrite m b v => Sys2Proof.Machine.execBandWrite m b v s
  | .startTrainingEnd failed => Sys2Proof.Machine.execStartTrainingEnd failed s
  | .retrain m node ticket chan => Sys2Proof.Machine.execRetrain m node ticket chan s
  | .retrainComplete node ok => Sys2Proof.Machine.execRetrainComplete node ok s
  | .keyLoad m ticket bank slot => Sys2Proof.Machine.execKeyLoad m ticket bank slot s
  | .keyClear m ticket bank slot => Sys2Proof.Machine.execKeyClear m ticket bank slot s
  | .keyCmdComplete => Sys2Proof.Machine.execKeyCmdComplete s
  | .claim => Sys2Proof.Machine.execClaim s
  | .release => Sys2Proof.Machine.execRelease s
  | .lockAutoRelease e => Sys2Proof.Machine.execLockAutoRelease e s
  | .gcmEncrypt e => Sys2Proof.Machine.execGcmEncrypt e s
  | .gcmDecrypt e => Sys2Proof.Machine.execGcmDecrypt e s
  | .ctr e => Sys2Proof.Machine.execCtr e s
  | .hmacSha1 e => Sys2Proof.Machine.execHmacSha1 e s
  | .cipherJobComplete e => Sys2Proof.Machine.execCipherJobComplete e s
  | .drbgReseed healthy => Sys2Proof.Machine.execDrbgReseed healthy s
  | .rngStale => Sys2Proof.Machine.execRngStale s
  | .rngRead m => Sys2Proof.Machine.execRngRead m s
  | .alarm bit => Sys2Proof.Machine.execAlarm bit s
  | .alarmClear m active v => Sys2Proof.Machine.execAlarmClear m active v s
  | .interruptEvent source => Sys2Proof.Machine.execInterruptEvent source s
  | .softwareSet m a v => Sys2Proof.Machine.execSoftwareSet m a v s
  | .interruptPresent target => Sys2Proof.Machine.execInterruptPresent target s
  | .interruptClaim m target => Sys2Proof.Machine.execInterruptClaim m target s
  | .eoi m target source => Sys2Proof.Machine.execEoi m target source s
  | .sourceConfigWrite m source v => Sys2Proof.Machine.execSourceConfigWrite m source v s
  | .waitWake core => Sys2Proof.Machine.execWaitWake core s
  | .targetReset target => Sys2Proof.Machine.execTargetReset target s
  | .logEvent code block unit severity prog snap => Sys2Proof.Machine.execLogEvent code block unit severity prog snap s
  | .ringMove => Sys2Proof.Machine.execRingMove s
  | .flushStart => Sys2Proof.Machine.execFlushStart s
  | .flushPage => Sys2Proof.Machine.execFlushPage s
  | .flashError => Sys2Proof.Machine.execFlashError s
  | .logFlush m ticket => Sys2Proof.Machine.execLogFlush m ticket s
  | .readSector m ticket sector => Sys2Proof.Machine.execReadSector m ticket sector s
  | .flashEnable m v => Sys2Proof.Machine.execFlashEnable m v s
  | .ownerClaim m v => Sys2Proof.Machine.execOwnerClaim m v s
  | .ownerRelease m v => Sys2Proof.Machine.execOwnerRelease m v s
  | .renew m => Sys2Proof.Machine.execRenew m s
  | .leaseLapse => Sys2Proof.Machine.execLeaseLapse s
  | .handoverWrite m v => Sys2Proof.Machine.execHandoverWrite m v s
  | .ibaRequest => Sys2Proof.Machine.execIbaRequest s
  | .mgmtRequest body => Sys2Proof.Machine.execMgmtRequest body s
  | .stnLoad m n v => Sys2Proof.Machine.execStnLoad m n v s
  | .stnLoadComplete n => Sys2Proof.Machine.execStnLoadComplete n s
  | .hold m cluster ticket force => Sys2Proof.Machine.execHold m cluster ticket force s
  | .clusterLoadComplete cluster => Sys2Proof.Machine.execClusterLoadComplete cluster s
  | .runCluster m cluster ticket => Sys2Proof.Machine.execRunCluster m cluster ticket s
  | .datumRead m ticket addr => Sys2Proof.Machine.execDatumRead m ticket addr s
  | .datumWrite m ticket addr => Sys2Proof.Machine.execDatumWrite m ticket addr s
  | .datumWriteComplete => Sys2Proof.Machine.execDatumWriteComplete s
  | .reloadSensorTrims m ticket => Sys2Proof.Machine.execReloadSensorTrims m ticket s
  | .porstAssert => Sys2Proof.Machine.execPorstAssert s
  | .porstRelease => Sys2Proof.Machine.execPorstRelease s
  | .sysrstAssert => Sys2Proof.Machine.execSysrstAssert s
  | .sysrstRelease => Sys2Proof.Machine.execSysrstRelease s
  | .bootImageCheck => Sys2Proof.Machine.execBootImageCheck s
  | .aliveKick m v => Sys2Proof.Machine.execAliveKick m v s
  | .aliveToggle => Sys2Proof.Machine.execAliveToggle s
  | .aliveExpiry => Sys2Proof.Machine.execAliveExpiry s
  | .twinAliveEdge => Sys2Proof.Machine.execTwinAliveEdge s
  | .twinAliveTimeout => Sys2Proof.Machine.execTwinAliveTimeout s
  | .pwrfailFall => Sys2Proof.Machine.execPwrfailFall s
  | .regulatorPoll answers => Sys2Proof.Machine.execRegulatorPoll answers s
  | .avsUpdate target => Sys2Proof.Machine.execAvsUpdate target s
  | .powerEstimate e => Sys2Proof.Machine.execPowerEstimate e s
  | .powerGate kind index => Sys2Proof.Machine.execPowerGate kind index s
  | .powerWake kind index => Sys2Proof.Machine.execPowerWake kind index s
  | .thermalWarn hot => Sys2Proof.Machine.execThermalWarn hot s
  | .thermalCapStep hot => Sys2Proof.Machine.execThermalCapStep hot s
  | .thermtrip hot => Sys2Proof.Machine.execThermtrip hot s
  | .clusterLoad m cluster ticket dram cs addr => Sys2Proof.Machine.execClusterLoad m cluster ticket dram cs addr s
  | .perBankRefresh node chan bank forced => Sys2Proof.Machine.execPerBankRefresh node chan bank forced s
  | .lpiReceived lg port enter => Sys2Proof.Machine.execLpiReceived lg port enter s
  | .gangEnable m g v => Sys2Proof.Machine.execGangEnable m g v s
  | .pcieLinkUp hif => Sys2Proof.Machine.execPcieLinkUp hif s

end Sys2Proof.Machine
end

