-- ==== Sys2Proof/WellFormed.lean ====
section
/-! DEFINITION. When a command is well formed: each operand within the range its rule gives it (00 R8, R12; 01 R19 and the
counts of the register tables), and a Tarermeus instruction's fields within the formats of 09 R237. The meanings are total and
need none of it. -/
namespace Sys2Proof

/-- A master: control cores are numbered 0 to 15 (01 R33). -/
def masterOk : Master → Bool
  | .ctl n => decide (n < 16)
  | _ => true

/-- A core number: four signal cores of each of 136 physical stations, or a control core at 1,024 and up (01 R19). -/
def coreOk (n : Nat) : Bool := decide (n < 544) || (decide (1024 ≤ n) && decide (n < 1040))

/-- A queue number: 20 bits, not the value for none (11 R275). -/
def queueOk (q : Nat) : Bool := decide (q < 0xFFFFF)

/-- A producer or reader that the device has (01 R19, R20). -/
def agentOk : Agent → Bool
  | .core n => coreOk n
  | .lg n => decide (n < 16)
  | .vcc n => decide (n < 64)
  | .cmp n => decide (n < 4)
  | .aud n => decide (n < 2)
  | .mem n => decide (n < 32)
  | .mover n => coreOk n
  | .engine e => decide (e < 96)
  | _ => true

/-- A unit of a kind, by its number (01 R19, R30). -/
def unitOk : UnitKind → Nat → Bool
  | .station, i => decide (i < 128)
  | .codec, i => decide (i < 64)
  | .composer, i => decide (i < 4)
  | .audio, i => decide (i < 2)

/-- An access a master makes whose target lies in the control window (00 R8). -/
def windowOk (addr : Nat) : Bool := decide (0xFF0000000000 ≤ addr) && decide (addr ≤ 0xFF0FFFFFFFFF)

/-- A ticket: eight bits. -/
def ticketOk (t : Nat) : Bool := decide (t < 256)

/-- A link group and a port of it (01 R19; 12 R291). -/
def portOk (lg port : Nat) : Bool := decide (lg < 16) && decide (port < 32)

/-- A memory node and a channel of it (01 R19). -/
def chanOk (node chan : Nat) : Bool := decide (node < 32) && decide (chan < 8)

/-- An audio port node and a port of it (08). -/
def audioOk (node port : Nat) : Bool := decide (node < 2) && decide (port < 8)

/-- A physical byte address: 48 bits. -/
def byteOk (a : Nat) : Bool := decide (a < 2 ^ 48)

/-- A register number of a file of `n`. -/
def regNo (n k : Nat) : Bool := decide (k < n)

/-- A register named by a scalar move: 32 g, 8 p, 8 m, 4 c (09 R228). -/
def sregOk : SReg → Bool
  | .g n => regNo 32 n
  | .p n => regNo 8 n
  | .m n => regNo 8 n
  | .c n => regNo 4 n

/-- A data register: 32 g or 64 w (09 R228). -/
def dregOk : DReg → Bool
  | .g n => regNo 32 n
  | .w n => regNo 64 n

/-- A signed field of `k` bits. -/
def signedOk (k : Nat) (z : Int) : Bool := decide (-(2 : Int) ^ (k - 1) ≤ z) && decide (z < (2 : Int) ^ (k - 1))

/-- The address fields of format M (09 R237, R238). -/
def addrModeOk (a : AddrMode) : Bool := regNo 8 a.p && regNo 8 a.m && decide (a.amode < 4) && signedOk 12 a.imm

/-- The fields of one Tarermeus instruction fit the formats of 09 R237 and name registers of 09 R228. -/
def coreInstrOk : CoreInstr → Bool
  | .scalar _ gd ga src => regNo 32 gd && regNo 32 ga &&
      (match src with
        | .reg gb => regNo 32 gb
        | .imm i => signedOk 16 i)
  | .moveReg d s => sregOk d && sregOk s
  | .branch c ga off => decide (c < 8) && regNo 32 ga && signedOk 18 off
  | .call c ga off => decide (c < 8) && regNo 32 ga && signedOk 18 off
  | .rep c len fromG n => regNo 4 c && decide (len < 4096) && regNo (if fromG then 32 else 2048) n
  | .mfp gd _ => regNo 32 gd
  | .mtp _ ga => regNo 32 ga
  | .tlbinv ga => regNo 32 ga
  | .limit gE gK w => regNo 32 gE && regNo 32 gK && regNo 64 w
  | .load d size _ am => dregOk d && [1, 2, 4, 8, 16].contains size && addrModeOk am
  | .store d size am => dregOk d && [1, 2, 4, 8, 16].contains size && addrModeOk am
  | .qpush w g _ => regNo 64 w && regNo 32 g
  | .qpop w g gd => regNo 64 w && regNo 32 g && regNo 32 gd
  | .qmark g k gd => regNo 32 g && decide (k < 1024) && regNo 32 gd
  | .qrewind g k gd => regNo 32 g && decide (k < 1024) && regNo 32 gd
  | .qrelease g f gd => regNo 32 g && decide (f < 1024) && regNo 32 gd
  | .qflush g gd => regNo 32 g && regNo 32 gd
  | .tready g gd => regNo 32 g && regNo 32 gd
  | .tcancel g gd => regNo 32 g && regNo 32 gd
  | .moveI w gd _ => regNo 64 w && regNo 32 gd
  | .callsvc gd ga n => regNo 32 gd && regNo 32 ga && decide (n < 65536)
  | .valu _ wd wa wb lanes => regNo 64 wd && regNo 64 wa && regNo 64 wb && decide (lanes < 4)
  | .mac a wa wb x => regNo 8 a && regNo 64 wa && regNo 64 wb && decide (x.bsel < 8)
  | .tapd a wb p m x => regNo 8 a && regNo 64 wb && regNo 8 p && regNo 8 m && decide (x.bsel < 8)
  | .sat _ a wd shift h _ => regNo 8 a && regNo 64 wd && decide (shift < 64) && decide (h < 8)
  | .nop => true
  | .ret cond ga => decide (cond < 8) && regNo 32 ga
  | .syncI => true
  | .waitI => true
  | .eret => true
  | .reserved op => decide (op < 64)

/-- A bundle of four encodable instructions. -/
def bundleOk (b : Bundle) : Bool := coreInstrOk b.s0 && coreInstrOk b.s1 && coreInstrOk b.s2 && coreInstrOk b.s3

/-- A job queue holder, register index or table entry below its count. -/
def below (n k : Nat) : Bool := decide (k < n)

/-- The operands of a command lie in the ranges that its rule and the register tables give them. -/
def Instr.wf : Instr → Bool
  | .registerWrite m addr _ => masterOk m && windowOk addr && below 1 (addr % 8)
  | .clearingRead m addr => masterOk m && windowOk addr && below 1 (addr % 8)
  | .unmappedAccess m _ addr _ => masterOk m && windowOk addr && below 1 (addr % 8)
  | .misalignedAccess m _ addr size _ => masterOk m && windowOk addr && !(below 1 (addr % 8) && decide (size = 8))
  | .stnMapWrite m n _ => masterOk m && below 128 n
  | .meridianAdvance _ => true
  | .oscFallback => true
  | .oscSelWrite m _ _ => masterOk m
  | .lock m _ => masterOk m
  | .holdover m _ => masterOk m
  | .relock m _ => masterOk m
  | .run m _ => masterOk m
  | .vernierWrite m _ => masterOk m
  | .holdoverWatchdogExpiry => true
  | .rateLearningUpdate => true
  | .set m _ => masterOk m
  | .timeSecRead m => masterOk m
  | .ptpReceive port _ => below 512 port
  | .syncInterval port => below 512 port
  | .delayResp port _ => below 512 port
  | .pdelayResp port _ => below 512 port
  | .rasterEnable m k _ => masterOk m && below 8 k
  | .tickBoundary => true
  | .transitEntryWrite m i which _ => masterOk m && below 4096 i && below 3 which
  | .firingMessageIssue i => below 4096 i
  | .transitFire i => below 4096 i
  | .frameOutPulseEnd pin => below 4 pin
  | .firingCommitCanvas i => below 4096 i
  | .firingStartTaskSet i => below 4096 i
  | .firingOpenGateCycle i => below 4096 i
  | .firingReleaseLaunch i => below 4096 i
  | .ppsOutRise => true
  | .ppsOutFall => true
  | .ppsInEdge => true
  | .frameReceive lg port _ _ => portOk lg port
  | .ingressPipeline lg => below 16 lg
  | .bufRet m lg _ => masterOk m && below 16 lg
  | .insert m ticket stream => masterOk m && ticketOk ticket && below 1048576 stream
  | .delete m ticket stream => masterOk m && ticketOk ticket && below 1048576 stream
  | .update m ticket stream => masterOk m && ticketOk ticket && below 1048576 stream
  | .flowSync m ticket stream => masterOk m && ticketOk ticket && below 1048576 stream
  | .flowCmdComplete => true
  | .stopLeg m ticket index => masterOk m && ticketOk ticket && below 1048576 index
  | .restartLeg m ticket index => masterOk m && ticketOk ticket && below 1048576 index
  | .blockStream m ticket index => masterOk m && ticketOk ticket && below 1048576 index
  | .unblockStream m ticket index => masterOk m && ticketOk ticket && below 1048576 index
  | .stopApply lg => below 16 lg
  | .stopSweepDone lg => below 16 lg
  | .stopComplete => true
  | .recordWriteback _ idx => below 2097152 idx
  | .policerConfigWrite m lg i which _ => masterOk m && below 16 lg && below 65535 i && below 2 which
  | .localPacketIntake lg => below 16 lg
  | .replicationWalk lg => below 16 lg
  | .copyEnqueue lg => below 16 lg
  | .select m lg ticket sp t i => masterOk m && below 16 lg && ticketOk ticket && below 16 sp && below 16 t && below 16777216 i
  | .refresh m lg ticket i => masterOk m && below 16 lg && ticketOk ticket && below 16777216 i
  | .clear m lg ticket i => masterOk m && below 16 lg && ticketOk ticket && below 16777216 i
  | .reloadLeg m lg ticket i => masterOk m && below 16 lg && ticketOk ticket && below 16777216 i
  | .reloadRoom m lg ticket i => masterOk m && below 16 lg && ticketOk ticket && below 16777216 i
  | .selCmdComplete lg => below 16 lg
  | .retransmitRequest lg => below 16 lg
  | .bufferHoldExpiry buf => byteOk buf
  | .bufferRelease buf => byteOk buf
  | .classShaperWrite m lg i which _ => masterOk m && below 16 lg && below 256 i && below 2 which
  | .jobTake core => below 64 core
  | .startByExpiry core queue => below 64 core && below 4 queue
  | .decodeComplete core _ => below 64 core
  | .codecBudgetPause core => below 64 core
  | .encodePreempt core => below 64 core
  | .encodePacketOut core _ => below 64 core
  | .encodeComplete core _ => below 64 core
  | .commitRequest m cmp _ => masterOk m && below 4 cmp
  | .insetShadowWrite m cmp c i which _ => masterOk m && below 4 cmp && below 1024 c && below 64 i && below 7 which
  | .latchPoint cmp c => below 4 cmp && below 1024 c
  | .frameComposed cmp c => below 4 cmp && below 1024 c
  | .frameDeadlineMiss cmp c => below 4 cmp && below 1024 c
  | .outputLatch node port => audioOk node port
  | .outputBufferReturn node port => audioOk node port
  | .inputBlockBoundary node port => audioOk node port
  | .inputBlockPush node port _ => audioOk node port
  | .flowLatch node f => below 2 node && below 16 f
  | .flowPacketHandoff node f => below 2 node && below 16 f
  | .audioPortEnable m node port _ => masterOk m && audioOk node port
  | .audioPortStop m node port _ => masterOk m && audioOk node port
  | .routeWrite m node port _ => masterOk m && audioOk node port
  | .maskWrite m node port _ => masterOk m && audioOk node port
  | .portLock node port ratio => audioOk node port && below 1099511627776 ratio
  | .portUnlock node port ratio => audioOk node port && below 1099511627776 ratio
  | .csBlockReceive node port ch0 ch1 => audioOk node port && below 25 ch0.length && below 25 ch1.length
  | .flowEnable m node f _ => masterOk m && below 2 node && below 16 f
  | .bundleExecute core b => coreOk core && bundleOk b
  | .sync core => coreOk core
  | .dramLoadReply core => coreOk core
  | .interruptEntry core => coreOk core
  | .postedAck core => coreOk core
  | .queueReply core => coreOk core
  | .move core => coreOk core
  | .moveComplete core => coreOk core
  | .accountCharge account currency _ => below 4096 account && below 4 currency
  | .exhaustionNews consumer => agentOk consumer
  | .taskReady core rec => core.all coreOk && byteOk rec
  | .taskCancel core rec _ => core.all coreOk && byteOk rec
  | .slotFill => true
  | .taskStart core => below 544 core
  | .taskEnd core => below 544 core
  | .drain m ticket kind index => masterOk m && ticketOk ticket && unitOk kind index
  | .halt m ticket kind index begun => masterOk m && ticketOk ticket && unitOk kind index && begun.all byteOk
  | .resume m ticket kind index => masterOk m && ticketOk ticket && unitOk kind index
  | .unitDrained kind index => unitOk kind index
  | .listConfigWrite m l _ => masterOk m && below 64 l
  | .qpush producer queue _ _ => agentOk producer && queueOk queue
  | .itemCommit queue => queueOk queue
  | .qpop reader queue => agentOk reader && queueOk queue
  | .qmark reader queue k => agentOk reader && queueOk queue && below 4 k
  | .qrewind reader queue k => agentOk reader && queueOk queue && below 4 k
  | .qrelease reader queue flags => agentOk reader && queueOk queue && below 1024 flags
  | .qflush reader queue => agentOk reader && queueOk queue
  | .openQueue m node ticket queue => masterOk m && below 32 node && ticketOk ticket && queueOk queue
  | .close m node ticket queue => masterOk m && below 32 node && ticketOk ticket && queueOk queue
  | .queueSync m node ticket queue => masterOk m && below 32 node && ticketOk ticket && queueOk queue
  | .flush m node ticket queue => masterOk m && below 32 node && ticketOk ticket && queueOk queue
  | .linkPortEnable m lg port _ => masterOk m && portOk lg port
  | .linkPortDisable m lg port _ => masterOk m && portOk lg port
  | .linkUp lg port => portOk lg port
  | .linkDown lg port => portOk lg port
  | .refclkPresent lg => below 16 lg
  | .refclkLoss lg => below 16 lg
  | .portFrameStart lg port => portOk lg port
  | .gateEvent lg port => portOk lg port
  | .gateListChange m lg port _ => masterOk m && portOk lg port
  | .gateListSwitch lg port => portOk lg port
  | .txItem lg => below 16 lg
  | .launchRelease lg port q => portOk lg port && below 8 q
  | .launchLate lg port q => portOk lg port && below 8 q
  | .lpiEnter lg port => portOk lg port
  | .lpiWake lg port => portOk lg port
  | .packetiserEnable m lg ticket flow => masterOk m && below 16 lg && ticketOk ticket && below 256 flow
  | .packetiserDisable m lg ticket flow => masterOk m && below 16 lg && ticketOk ticket && below 256 flow
  | .packetiserReload m lg ticket flow => masterOk m && below 16 lg && ticketOk ticket && below 256 flow
  | .videoPacketRelease lg flow => below 16 lg && below 256 flow
  | .tileWrite writer account addr data crc => agentOk writer && account.all (below 4096) && byteOk addr && below 4294967296 crc &&
      ((below 1 (addr % 512) && decide (data.length = 512)) || (writer == .hif && decide (0 < data.length ∧ addr % 512 + data.length ≤ 512)))
  | .tileRead _ gx gy addr => below 16 gx && below 16 gy && byteOk addr
  | .checksumFailureReport => true
  | .dramAccess node chan => chanOk node chan
  | .rowIdleClose node chan bank => chanOk node chan && below 96 bank
  | .neighbourRefresh node chan => chanOk node chan
  | .parityAlert node chan => chanOk node chan
  | .selfRefreshEntry node chan => chanOk node chan
  | .selfRefreshExit node chan => chanOk node chan
  | .bandWrite m b _ => masterOk m && below 24 b
  | .startTrainingEnd failed => failed.all (below 256)
  | .retrain m node ticket chan => masterOk m && chanOk node chan && ticketOk ticket
  | .retrainComplete node _ => below 32 node
  | .keyLoad m ticket bank slot => masterOk m && ticketOk ticket && below 16 bank && below 65536 slot
  | .keyClear m ticket bank slot => masterOk m && ticketOk ticket && below 16 bank && below 65536 slot
  | .keyCmdComplete => true
  | .claim => true
  | .release => true
  | .lockAutoRelease e => below 96 e
  | .gcmEncrypt e => below 96 e
  | .gcmDecrypt e => below 96 e
  | .ctr e => below 96 e
  | .hmacSha1 e => below 96 e
  | .cipherJobComplete e => below 96 e
  | .drbgReseed _ => true
  | .rngStale => true
  | .rngRead m => masterOk m
  | .alarm b => below 64 b
  | .alarmClear m active _ => masterOk m && decide (active < 2 ^ 64)
  | .interruptEvent source => below 4096 source
  | .softwareSet m a _ => masterOk m && below 4 a
  | .interruptPresent target => below 18 target
  | .interruptClaim m target => masterOk m && below 18 target
  | .eoi m target source => masterOk m && below 18 target && below 4096 source
  | .sourceConfigWrite m source _ => masterOk m && below 4096 source
  | .waitWake core => coreOk core
  | .targetReset target => below 18 target
  | .logEvent code block unit severity _ snap => below 65536 code && below 65536 block && below 65536 unit && below 16 severity &&
      below 9 snap.length
  | .ringMove => true
  | .flushStart => true
  | .flushPage => true
  | .flashError => true
  | .logFlush m ticket => masterOk m && ticketOk ticket
  | .readSector m ticket sector => masterOk m && ticketOk ticket && below 65536 sector
  | .flashEnable m _ => masterOk m
  | .ownerClaim m _ => masterOk m
  | .ownerRelease m _ => masterOk m
  | .renew m => masterOk m
  | .leaseLapse => true
  | .handoverWrite m _ => masterOk m
  | .ibaRequest => true
  | .mgmtRequest _ => true
  | .stnLoad m n _ => masterOk m && below 128 n
  | .stnLoadComplete n => below 128 n
  | .hold m cluster ticket _ => masterOk m && below 4 cluster && ticketOk ticket
  | .clusterLoadComplete cluster => below 4 cluster
  | .runCluster m cluster ticket => masterOk m && below 4 cluster && ticketOk ticket
  | .datumRead m ticket addr => masterOk m && ticketOk ticket && below 65536 addr
  | .datumWrite m ticket addr => masterOk m && ticketOk ticket && below 65536 addr
  | .datumWriteComplete => true
  | .reloadSensorTrims m ticket => masterOk m && ticketOk ticket
  | .porstAssert => true
  | .porstRelease => true
  | .sysrstAssert => true
  | .sysrstRelease => true
  | .bootImageCheck => true
  | .aliveKick m _ => masterOk m
  | .aliveToggle => true
  | .aliveExpiry => true
  | .twinAliveEdge => true
  | .twinAliveTimeout => true
  | .pwrfailFall => true
  | .regulatorPoll answers => below 9 answers.length
  | .avsUpdate _ => true
  | .powerEstimate _ => true
  | .powerGate kind index => unitOk kind index
  | .powerWake kind index => unitOk kind index
  | .thermalWarn _ => true
  | .thermalCapStep _ => true
  | .thermtrip _ => true
  | .clusterLoad m cluster ticket _ _ addr => masterOk m && below 4 cluster && ticketOk ticket && byteOk addr
  | .perBankRefresh node chan bank _ => chanOk node chan && below 96 bank
  | .lpiReceived lg port _ => portOk lg port
  | .gangEnable m g _ => masterOk m && below 16 g
  | .pcieLinkUp hif => below 2 hif

end Sys2Proof
end

