-- ==== Sys2Proof/Safety.lean ====
section
/-! DEFINITION. The terms in which claims about the model are stated: which registers exist, whose writes are accepted, what a
command completes with, what it leaves alone, and the forms that every step keeps. -/
namespace Sys2Proof.Machine

/-- The register exists: its block, and its index, are within their counts (00 R8, R10). -/
abbrev RegAddr.valid (r : RegAddr) : Prop :=
  r.unit < r.name.info.blk.span.2 ∧ (r.name.info.firstOnly = true → r.unit = 0) ∧ r.idx < r.name.info.count

/-- Is a register's write judged by the rule of ownership alone (17 R387, R388)? The ownership registers and INC_EOI have
rules of their own. -/
def plainJudged : RegName → Bool
  | .DEV_OWNER => false
  | .DEV_LEASE => false
  | .DEV_HANDOVER => false
  | .DEV_DELEGATE => false
  | .INC_EOI => false
  | _ => true

/-- A master whose accesses reach the device, and whose writes are accepted: the owner, or a delegated control core
(17 R387, R388; 18 R412). -/
def State.admits (s : State) (m : Master) : Prop := s.reaches m = true ∧ s.mayWrite m = true

/-- The command runs from `s` to a next state of which `P` holds. -/
def Completes (c : Instr) (s : State) (P : State → Prop) : Prop := ∃ t, exec c s = .next t ∧ P t

/-- Nothing but registers, and the answer of the register bus, differs. -/
def onlyRegs (s t : State) : Prop := t = { s with regs := t.regs, bus := t.bus }

/-- Every register but those listed reads as before. -/
def regsKept (s t : State) (l : List RegName) : Prop := ∀ n u i, n ∉ l → RegAddr.valid ⟨n, u, i⟩ → t.reg n u i = s.reg n u i

/-- Every register but those at the listed addresses reads as before. -/
def keptBut (s t : State) (l : List RegAddr) : Prop := ∀ r : RegAddr, r.valid → r ∉ l → t.reg r.name r.unit r.idx = s.reg r.name r.unit r.idx

/-- An operation of queue `q` that meets no other of its cycle (11 R287; log 2): none is held back, and none of the waiting commands
of the present cycle is one of that queue's. -/
def State.alone (s : State) (q : Nat) (c : Instr) : Prop := s.deferredOn q = [] ∧ restOfCycle q [c] s.sameCycle = []

/-- The byte memories are in canonical form: addresses rise strictly and nothing listed reads as an unlisted byte does. -/
def State.memOk (s : State) : Prop :=
  Mem.wf dflt s.dram = true ∧ Mem.wf dflt s.stnMem = true ∧ Mem.wf dflt s.ctlMem = true ∧ Mem.wf 0xFF s.flash = true ∧
    Mem.wf dflt s.sheets = true

/-- The forms that every step keeps: canonical memories, a register file and a map of queues with rising keys, and an oscillator trim
of 40 bits (17 R400). -/
def State.formsOk (s : State) : Prop :=
  s.memOk ∧ SMap.rising s.regs = true ∧ SMap.rising s.queues = true ∧ (-(2 ^ 39) : Int) ≤ s.mtb.trim ∧ s.mtb.trim < 2 ^ 39

/-- A queue keeps the form of 11 R276 and R283: the ring holds the items from rel to wr, rd lies between them, an F-class queue
reads where it releases, the occupancy is within the capacity, and every mark of an H-class queue that is not stale lies between rel and wr. -/
def Queue.wf (a : Queue) : Prop :=
  a.wr < 2 ^ 17 ∧ a.rd < 2 ^ 17 ∧ a.rel < 2 ^ 17 ∧ 4 ≤ a.log2cap ∧ a.log2cap ≤ 16 ∧ a.occ ≤ 2 ^ a.log2cap ∧ a.readNo ≤ a.occ ∧
    a.items.length = a.occ ∧ (a.cls = 1 → a.rd = a.rel) ∧ a.marks.length = 4 ∧
    (∀ m ∈ a.marks, m.pos < 2 ^ 17 ∧ (a.cls ≠ 1 → m.stale = false → (m.pos + 2 ^ 17 - a.rel) % 2 ^ 17 ≤ a.occ))

end Sys2Proof.Machine
end

