-- ==== Sys2Proof/Certificates/Slice0/Obligations.lean ====
section
/-! DEFINITION. The statements about the model for the provers. Each docstring says which rules of the spec it formalises. -/
open Sys2Proof Sys2Proof.Machine

/-- One step takes the command at the front of the queue and is exec of it on the state with the rest of the queue. With no command
waiting and no queue command waiting at a memory node, a step leaves the state as it is; this is the model's choice, log entry 22.
Every command answers a next state in every state, with every operand, but for the three that a rule stops on its cases of an
outcome that is not defined (05 R147; 06 R178; 09 R257): of those, JOB_TAKE and START_BY_EXPIRY answer one where the job they would
take is none of those cases, BUNDLE_EXECUTE where the bundle is none. What each next state holds is said by the other statements.
Completion is stated for every constructor of Instr. -/
def Obligations.StepRunsFrontCommand : Prop :=
  (∀ (c : Instr) (rest : List Instr) (s : State), s.pending = c :: rest → step s = exec c { s with pending := rest }) ∧
  (∀ s : State, s.pending = [] → (∀ n, n < 32 → (s.qnode n).cmds = []) → step s = .next s) ∧
  (∀ (c : Instr) (s : State), (∀ n, c ≠ .jobTake n) → (∀ n k, c ≠ .startByExpiry n k) → (∀ n b, c ≠ .bundleExecute n b) →
    ∃ t, exec c s = .next t) ∧
  (∀ (s : State) (n : Nat), s.takeUndefined n = none → ∃ t, exec (.jobTake n) s = .next t) ∧
  (∀ (s : State) (n k : Nat), (s.expiryChoice n k).bind (s.jobUndefined n) = none → ∃ t, exec (.startByExpiry n k) s = .next t)

/-- An accepted write of a register that has only read-write, read-only and clearing fields follows the access codes of 00 R12: a
read-write bit takes the written bit, a w1c bit is cleared by a 1, every other bit stays; nothing else changes. Here for
MEM_GUARD, DIS_ACCT_GRANT0, AUD_PORT_STAT, LOG_STATUS, INC_DB_CTRL and MTB_PTP_PORT. A read of a register without clear-on-read
fields has no effect beyond its answer, whoever reads; an rc register returns its value and is cleared only for the owner or a
delegated control core (00 R12; 17 R387, R388).
Completion is stated for REGISTER_WRITE and CLEARING_READ. -/
def Obligations.AccessCodesGovernAccesses : Prop :=
  (∀ (s : State) (m : Master) (v : Reg64) (r : RegAddr),
      r.name ∈ [RegName.MEM_GUARD, .DIS_ACCT_GRANT0, .AUD_PORT_STAT, .LOG_STATUS, .INC_DB_CTRL, .MTB_PTP_PORT] →
      RegAddr.valid r → s.admits m →
      Completes (.registerWrite m r.addr v) s (fun t =>
        onlyRegs s t ∧ t.bus = ⟨0, 0⟩ ∧
        (∀ i, i < 64 → bit (t.reg r.name r.unit r.idx) i =
          if bit (r.name.info.mask [.rw]) i then bit v i
          else if bit (r.name.info.mask [.w1c]) i then bit (s.reg r.name r.unit r.idx) i && !bit v i
          else bit (s.reg r.name r.unit r.idx) i) ∧
        (∀ q : RegAddr, q.valid → q ≠ r → t.reg q.name q.unit q.idx = s.reg q.name q.unit q.idx))) ∧
  (∀ (s : State) (m : Master), s.reaches m = true →
      (∀ r : RegAddr, r.name ∈ [RegName.DEV_OWN_CNT, .MEM_MAP_ERR, .SEC_CNT, .INC_CNT, .VCC_CNT] → r.valid →
        Completes (.clearingRead m r.addr) s (fun t =>
          onlyRegs s t ∧ t.bus = ⟨codedRead r.name.info (s.reg r.name r.unit r.idx), 0⟩ ∧
          t.reg r.name r.unit r.idx = (if s.mayWrite m then clearedOnRead r.name.info (s.reg r.name r.unit r.idx)
            else s.reg r.name r.unit r.idx) ∧
          (∀ q : RegAddr, q.valid → q ≠ r → t.reg q.name q.unit q.idx = s.reg q.name q.unit q.idx))) ∧
      (∀ r : RegAddr, r.name ∈ [RegName.DEV_ID, .PWR_CAP, .LNK_PORT_CFG, .DIS_CTRL] → r.valid →
        Completes (.clearingRead m r.addr) s (fun t => t = { s with bus := ⟨codedRead r.name.info (s.reg r.name r.unit r.idx), 0⟩ })))

/-- An access where no register stands, or one that is not a naturally aligned 64-bit access, has no effect but its count: it reads
zero, DEV_ACCESS_ERR.count rises by one and saturates, and DEV_ACCESS_LAST names the access (00 R10, R11; 01 R33). A write by a
candidate master that is not the owner, or by a control core of a cluster that is not delegated, is dropped and counted in the
master's own counter; nothing else changes (17 R387, R388).
Completion is stated for REGISTER_WRITE, UNMAPPED_ACCESS and MISALIGNED_ACCESS. -/
def Obligations.RefusedAccessesAreOnlyCounted : Prop :=
  (∀ (s : State) (m : Master) (write : Bool) (v : Reg64) (addr size : Nat), s.reaches m = true → addr < 2 ^ 48 →
      (∀ n, m = .ctl n → n < 16) →
      let after (t : State) : Prop :=
        onlyRegs s t ∧ t.bus = ⟨0, 2⟩ ∧ regsKept s t [.DEV_ACCESS_ERR, .DEV_ACCESS_LAST] ∧
        t.get F.DEV_ACCESS_ERR_count = min (2 ^ 32 - 1) (s.get F.DEV_ACCESS_ERR_count + 1) ∧
        t.get F.DEV_ACCESS_LAST_write = bnat write ∧ t.get F.DEV_ACCESS_LAST_source = Master.code m ∧
        t.get F.DEV_ACCESS_LAST_addr = addr
      (locate addr = none → Completes (.unmappedAccess m write addr v) s after) ∧
      ((size ≠ 8 ∨ addr % 8 ≠ 0) → Completes (.misalignedAccess m write addr size v) s after)) ∧
  (∀ (s : State) (m : Master) (v : Reg64) (r : RegAddr), r.valid → plainJudged r.name = true →
      s.reaches m = true → s.mayWrite m = false →
      Completes (.registerWrite m r.addr v) s (fun t =>
        onlyRegs s t ∧ t.bus = ⟨0, 1⟩ ∧ regsKept s t [.DEV_OWN_CNT] ∧
        t.get F.DEV_OWN_CNT_hif0 = (if m = .hif0 then min 0xFFF (s.get F.DEV_OWN_CNT_hif0 + 1) else s.get F.DEV_OWN_CNT_hif0) ∧
        t.get F.DEV_OWN_CNT_hif1 = (if m = .hif1 then min 0xFFF (s.get F.DEV_OWN_CNT_hif1 + 1) else s.get F.DEV_OWN_CNT_hif1) ∧
        t.get F.DEV_OWN_CNT_mgmt = (if m = .mgmt then min 0xFFF (s.get F.DEV_OWN_CNT_mgmt + 1) else s.get F.DEV_OWN_CNT_mgmt) ∧
        t.get F.DEV_OWN_CNT_inband = (if m = .inband then min 0xFFF (s.get F.DEV_OWN_CNT_inband + 1) else s.get F.DEV_OWN_CNT_inband) ∧
        t.get F.DEV_OWN_CNT_ctl = (if candidate m = false then min 0xFFFF (s.get F.DEV_OWN_CNT_ctl + 1) else s.get F.DEV_OWN_CNT_ctl)))

/-- A write of DEV_STN_MAP[n]: the entry's own value is always accepted and clears refused; a write that fails a condition keeps the
entry and sets refused; an accepted write binds the station (01 R31). Nothing else changes.
Completion is stated for STN_MAP_WRITE. -/
def Obligations.StationMapWriteJudged : Prop :=
  ∀ (s : State) (m : Master) (n : Nat) (v : Reg64), n < 128 → s.admits m →
    Completes (.stnMapWrite m n v) s (fun t =>
      onlyRegs s t ∧ t.bus = ⟨0, 0⟩ ∧
      (∀ q : RegAddr, q.valid → q ≠ ⟨.DEV_STN_MAP, 0, n⟩ → t.reg q.name q.unit q.idx = s.reg q.name q.unit q.idx) ∧
      (let p := fld v 7 0
       let free := (∀ k, k < 128 → s.physOf k ≠ p) ∧ p ≤ 135 ∧ p ∉ s.sys.stnHalted ∧ Config.selfTest p = true ∧
         (s.get F.DIS_STN_STATE_state 0 n = 2 ∨ s.get F.DIS_STN_STATE_state 0 n = 3)
       (p = s.physOf n → t.physOf n = p ∧ t.get F.DEV_STN_MAP_refused 0 n = 0) ∧
       (p ≠ s.physOf n → free → t.physOf n = p ∧ t.get F.DEV_STN_MAP_refused 0 n = 0) ∧
       (p ≠ s.physOf n → ¬ free → t.physOf n = s.physOf n ∧ t.get F.DEV_STN_MAP_refused 0 n = 1)))

/-- A claim of an unowned device makes the candidate master the owner, takes period_ms clamped to 10 to 10,000 ms and starts the
lease; a claim while the device is owned is dropped and counted, even the owner's own (17 R384, R387). A release by the owner
leaves the device unowned and clears any handover; a renewal by the owner restarts the lease with the period then in DEV_OWNER;
the successor's renewal makes it the owner and clears the handover (17 R385, R386). A write of period_ms by the owner applies from
its next renewal, and either reset leaves the device unowned (17 R384, R385). At the end of the lease period without a renewal the
device becomes unowned, any handover is cleared and record 0x0002 is raised at severity 4; before it, or where an accepted renewal comes in
the same cycle, nothing happens (17 R385). A
handover write by the owner names a successor, cancels with en 0, and is refused, with refused set, when it names the owner itself
or a code that is no candidate master; a master that is not the owner has its write dropped (17 R386, R387).
Completion is stated for REGISTER_WRITE, OWNER_CLAIM, OWNER_RELEASE, RENEW, LEASE_LAPSE, HANDOVER_WRITE, PORST_ASSERT and SYSRST_ASSERT. -/
def Obligations.OwnershipFollowsClaimsAndLeases : Prop :=
  (∀ (s : State) (m : Master) (v : Reg64), s.reaches m = true → candidate m = true →
      (s.flag F.DEV_OWNER_owned = false →
        Completes (.ownerClaim m v) s (fun t =>
          t.ownedBy m = true ∧ t.get F.DEV_OWNER_period_ms = clampNat (fld v 47 32) 10 10000 ∧ t.bus = ⟨0, 0⟩ ∧
          t = { s with regs := t.regs, bus := t.bus, sys := { s.sys with
            period := clampNat (fld v 47 32) 10 10000, leaseEnd := s.upNs + clampNat (fld v 47 32) 10 10000 * 10 ^ 6 } } ∧
          regsKept s t [.DEV_OWNER])) ∧
      (s.flag F.DEV_OWNER_owned = true →
        Completes (.ownerClaim m v) s (fun t => t = (s.dropWrite m).answerBus 0 1))) ∧
  (∀ (s : State) (m : Master), s.reaches m = true →
      (s.ownedBy m = true → ∀ v : Reg64,
        Completes (.ownerRelease m v) s (fun t =>
          onlyRegs s t ∧ t.flag F.DEV_OWNER_owned = false ∧ t.flag F.DEV_HANDOVER_en = false ∧ t.bus = ⟨0, 0⟩ ∧
          regsKept s t [.DEV_OWNER, .DEV_HANDOVER])) ∧
      (s.ownedBy m = true →
        Completes (.renew m) s (fun t =>
          t = ({ s with sys := { s.sys with
            period := s.get F.DEV_OWNER_period_ms, leaseEnd := s.upNs + s.get F.DEV_OWNER_period_ms * 10 ^ 6 } } : State).answerBus 0 0)) ∧
      (s.successor m = true → s.ownedBy m = false →
        Completes (.renew m) s (fun t =>
          t.ownedBy m = true ∧ t.flag F.DEV_HANDOVER_en = false ∧ t.sys.leaseEnd = s.upNs + s.get F.DEV_OWNER_period_ms * 10 ^ 6 ∧
          t = { s with regs := t.regs, bus := ⟨0, 0⟩, sys := t.sys } ∧ regsKept s t [.DEV_OWNER, .DEV_HANDOVER]))) ∧
  ((∀ (s : State) (m : Master) (v : Reg64), s.reaches m = true → s.ownedBy m = true → bit v 0 = false → bit v 1 = false →
      Completes (.registerWrite m (RegAddr.addr ⟨.DEV_OWNER, 0, 0⟩) v) s (fun t =>
        onlyRegs s t ∧ t.ownedBy m = true ∧ t.get F.DEV_OWNER_period_ms = clampNat (fld v 47 32) 10 10000 ∧ regsKept s t [.DEV_OWNER])) ∧
    (∀ s : State, Completes .porstAssert s (fun t => t.flag F.DEV_OWNER_owned = false) ∧
      (s.sys.porst = false → Completes .sysrstAssert s (fun t => t.flag F.DEV_OWNER_owned = false)))) ∧
  (∀ s : State, s.flag F.DEV_OWNER_owned = true →
      (s.leaseMet = true → Completes .leaseLapse s (fun t => t = s)) ∧
      (s.leaseMet = false → s.sys.leaseEnd ≤ s.upNs →
        Completes .leaseLapse s (fun t =>
          t.flag F.DEV_OWNER_owned = false ∧ t.flag F.DEV_HANDOVER_en = false ∧
          (∃ u : State, onlyRegs s u ∧ regsKept s u [.DEV_OWNER, .DEV_HANDOVER] ∧ t = u.logEv 0x0002 0x000 0 4 []))) ∧
      (s.upNs < s.sys.leaseEnd → Completes .leaseLapse s (fun t => t = s))) ∧
  (∀ (s : State) (m : Master) (v : Reg64), s.reaches m = true →
      (s.ownedBy m = true →
        Completes (.handoverWrite m v) s (fun t =>
          onlyRegs s t ∧ t.bus = ⟨0, 0⟩ ∧ regsKept s t [.DEV_HANDOVER] ∧
          (bit v 63 = false → t.flag F.DEV_HANDOVER_en = false ∧ t.flag F.DEV_HANDOVER_refused = false) ∧
          (bit v 63 = true → fld v 7 0 ≤ 3 → fld v 7 0 ≠ Master.code m →
            t.flag F.DEV_HANDOVER_en = true ∧ t.get F.DEV_HANDOVER_successor = fld v 7 0 ∧ t.flag F.DEV_HANDOVER_refused = false) ∧
          (bit v 63 = true → (3 < fld v 7 0 ∨ fld v 7 0 = Master.code m) →
            t.flag F.DEV_HANDOVER_refused = true ∧ t.flag F.DEV_HANDOVER_en = s.flag F.DEV_HANDOVER_en ∧
            t.get F.DEV_HANDOVER_successor = s.get F.DEV_HANDOVER_successor))) ∧
      (s.ownedBy m = false → Completes (.handoverWrite m v) s (fun t => t = (s.dropWrite m).answerBus 0 1)))

/-- The in-band agent takes one request item, performs it as an access from master code 0x03 and pushes a reply with its status,
ticket and data; MGMT performs its request as master 0x02 and answers with status, ticket and data (17 R390, R391). An op other
than 1 and 2 touches no register and gives status 3. In reset, and after a thermal trip, MGMT is not answered (18 R412, R419).
Completion is stated for IBA_REQUEST and MGMT_REQUEST. -/
def Obligations.AgentsPerformRequests : Prop :=
  (∀ (s u : State) (w0 w1 : Word), s.flag F.DEV_IBA_QUEUE_en = true →
    ((s.queues.get? (s.get F.DEV_IBA_QUEUE_queue)).map (·.cls)).getD 0 = 1 →
    s.popItem (s.get F.DEV_IBA_QUEUE_queue) = some ([w0, w1], u) →
    let reply (t : State) (st : Nat) (d : Reg64) : State := t.pushItem .hif (fld w0 115 96)
      [BitVec.ofNat 128 (d.toNat * 2 ^ 64 + fld w0 123 116 * 2 ^ 56 + st * 2 ^ 48)]
    let a (write : Bool) : State := u.access .inband write (fld w0 47 0) 8 (BitVec.ofNat 64 (fld w1 63 0))
    (fld w0 127 124 = 1 → Completes .ibaRequest s (fun t => t = reply { a false with bus := u.bus } (a false).bus.status (a false).bus.data)) ∧
    (fld w0 127 124 = 2 → Completes .ibaRequest s (fun t => t = reply { a true with bus := u.bus } (a true).bus.status (a true).bus.data)) ∧
    (fld w0 127 124 ≠ 1 → fld w0 127 124 ≠ 2 → Completes .ibaRequest s (fun t => t = reply u 3 0))) ∧
  (∀ (s : State) (op ticket : Nat) (addr : Nat) (data : Reg64), s.inReset = false → s.sys.tripped = false → op < 256 → ticket < 256 → addr < 2 ^ 48 →
    let body := leBytes 1 op ++ leBytes 1 ticket ++ leBytes 6 addr ++ leBytes 8 data.toNat
    let a (write : Bool) : State := s.access .mgmt write addr 8 data
    let answer (t : State) (st : Nat) (d : Reg64) : State := t.emit (.mctp (leBytes 1 st ++ leBytes 1 ticket ++ leBytes 8 d.toNat))
    (op = 1 → Completes (.mgmtRequest body) s (fun t => t = answer { a false with bus := s.bus } (a false).bus.status (a false).bus.data)) ∧
    (op = 2 → Completes (.mgmtRequest body) s (fun t => t = answer { a true with bus := s.bus } (a true).bus.status (a true).bus.data)) ∧
    (op ≠ 1 → op ≠ 2 → Completes (.mgmtRequest body) s (fun t => t = answer s 3 0))) ∧
  (∀ (s : State) (body : List Byte), (s.inReset = true ∨ s.sys.tripped = true) → Completes (.mgmtRequest body) s (fun t => t = s))

/-- A station load is accepted only while the station is drained or halted, with no load in progress and a good source; it then waits
for its completion, which writes the whole target with the source's bytes and reports result 1, or result 3 where a guarded tile of the source fails verification. A load that is not accepted
reports result 2 or 4 and starts nothing (17 R393). The datum commands (17 R401, R402): a read copies the present sheet to the
buffer, a reload takes the sensor trims of a valid present sheet, a write of an invalid or factory sheet is refused with result 3
and of a good one waits for its completion, which stores the new sheet in the other copy and raises record 0x0502.
Completion is stated for STN_LOAD, STN_LOAD_COMPLETE, DATUM_READ, DATUM_WRITE, DATUM_WRITE_COMPLETE and RELOAD_SENSOR_TRIMS. -/
def Obligations.StationLoadsAndDatumCommands : Prop :=
  ((∀ (s : State) (m : Master) (n : Nat) (v : Reg64), n < 128 → s.admits m →
      let good := (s.get F.DIS_STN_STATE_state 0 n = 2 ∨ s.get F.DIS_STN_STATE_state 0 n = 3) ∧ s.sys.loads.get? n = none ∧
        fld v 63 60 = 1 ∧ fld v 51 48 ≤ 8
      let src := fld v 47 0 % 512 = 0 ∧ s.backed (fld v 47 0) (loadTarget 0 (fld v 51 48)).1 = true
      (good → src → Completes (.stnLoad m n v) s (fun t => t = ({ s with sys := { s.sys with
        loads := s.sys.loads.put n ⟨1, fld v 59 52, fld v 51 48, fld v 47 0, s.physOf n, none⟩ } } : State).answerBus 0 0)) ∧
      (good → ¬ src → Completes (.stnLoad m n v) s (fun t => onlyRegs s t ∧ regsKept s t [.STN_LOAD_STAT] ∧
        t.get F.STN_LOAD_STAT_ticket n = fld v 59 52 ∧ t.get F.STN_LOAD_STAT_result n = 4)) ∧
      (¬ good → Completes (.stnLoad m n v) s (fun t => onlyRegs s t ∧ regsKept s t [.STN_LOAD_STAT] ∧
        t.get F.STN_LOAD_STAT_ticket n = fld v 59 52 ∧ t.get F.STN_LOAD_STAT_result n = 2))) ∧
    (∀ (s : State) (n ticket target src phys : Nat) , n < 128 → ticket < 256 → target ≤ 8 →
      s.sys.loads.get? n = some ⟨1, ticket, target, src, phys, none⟩ →
      src % 512 = 0 →
      ((∃ i, i < (loadTarget phys target).1 / 512 ∧ s.guarded (src + 512 * i) = true ∧ s.verifies (src + 512 * i) = false) →
        Completes (.stnLoadComplete n) s (fun t => t.get F.STN_LOAD_STAT_ticket n = ticket ∧ t.get F.STN_LOAD_STAT_result n = 3 ∧
          t.sys = { s.sys with loads := s.sys.loads.del n } ∧ t.dram = s.dram)) ∧
      ((∀ i, i < (loadTarget phys target).1 / 512 → s.guarded (src + 512 * i) = true → s.verifies (src + 512 * i) = true) →
      Completes (.stnLoadComplete n) s (fun t =>
        t.stnMem = Mem.sets dflt s.stnMem (loadTarget phys target).2 (s.rd src (loadTarget phys target).1) ∧
        t.get F.STN_LOAD_STAT_ticket n = ticket ∧ t.get F.STN_LOAD_STAT_result n = 1 ∧ regsKept s t [.STN_LOAD_STAT] ∧
        t = { s with regs := t.regs, stnMem := t.stnMem, sys := { s.sys with loads := s.sys.loads.del n } })))) ∧
  ((∀ (s : State) (m : Master) (ticket a : Nat), ticket < 256 → a < 2 ^ 48 → s.admits m → s.sys.datum = none →
      (s.datumAddr a = true →
        Completes (.datumRead m ticket a) s (fun t =>
          t = (((s.wr a s.presentSheet).put F.PWR_DATUM_STAT_ticket ticket).put F.PWR_DATUM_STAT_result 1).answerBus 0 0)) ∧
      (s.datumAddr a = true → sheetValid (s.rd a 65536) = true → numAt (s.rd a 65536) 6 2 % 2 = 0 →
        Completes (.datumWrite m ticket a) s (fun t =>
          t = ({ s with sys := { s.sys with datum := some ⟨2, ticket, a, 0, 0, none⟩ } } : State).answerBus 0 0)) ∧
      (s.datumAddr a = true → (sheetValid (s.rd a 65536) = false ∨ numAt (s.rd a 65536) 6 2 % 2 = 1) →
        Completes (.datumWrite m ticket a) s (fun t => onlyRegs s t ∧ regsKept s t [.PWR_DATUM_STAT] ∧
          t.get F.PWR_DATUM_STAT_ticket = ticket ∧ t.get F.PWR_DATUM_STAT_result = 3)) ∧
      (sheetValid s.presentSheet = true →
        Completes (.reloadSensorTrims m ticket) s (fun t =>
          t.sys = { s.sys with trims := sheetTrims s.presentSheet } ∧ t.get F.PWR_DATUM_STAT_ticket = ticket ∧
          t.get F.PWR_DATUM_STAT_result = 1 ∧ regsKept s t [.PWR_DATUM_STAT] ∧ t = { s with regs := t.regs, bus := ⟨0, 0⟩, sys := t.sys }))) ∧
    (∀ (s : State) (c : Cmd), s.sys.datum = some c → s.sys.sheetCopy < 2 →
      Completes .datumWriteComplete s (fun t =>
        t.sys = { s.sys with datum := none, sheetCopy := 1 - s.sys.sheetCopy } ∧
        t.get F.PWR_DATUM_STAT_valid = 1 ∧ t.get F.PWR_DATUM_STAT_factory = 0 ∧
        t.get F.PWR_DATUM_STAT_writes = (s.get F.PWR_DATUM_STAT_writes + 1) % 2 ^ 32 ∧ t.get F.PWR_DATUM_STAT_result = 1 ∧
        (Mem.wf dflt s.sheets = true → ∀ i, 16 ≤ i → i < 65532 →
          Mem.get dflt t.sheets ((1 - s.sys.sheetCopy) * 65536 + i) = ((s.rd c.a 65536)[i]?).getD 0) ∧
        t.dram = s.dram ∧ t.stnMem = s.stnMem ∧ t.ctlMem = s.ctlMem ∧ t.flash = s.flash)))

/-- The commands of a control cluster (17 R398): hold resets and holds the four cores, load is taken only while held and its
completion writes the image's payload into the cluster's 8 MiB only when it verifies, run releases the cores at the image's entry
point; the image of a failed load leaves the control SRAM unchanged and raises record 0x0601.
Completion is stated for HOLD, CLUSTER_LOAD_COMPLETE, RUN_CLUSTER and CLUSTER_LOAD. -/
def Obligations.ClusterCommandsHoldLoadRun : Prop :=
  (∀ (s : State) (m : Master) (k ticket : Nat), k < 4 → ticket < 256 → s.admits m → mayCommand k m = true →
    (s.cluster k).load = none →
    (∀ force : Bool, (force = true ∨ ∃ j, j < 4 ∧ j ≠ k ∧ (s.cluster j).held = false) →
      Completes (.hold m k ticket force) s (fun t =>
        (t.cluster k).held = true ∧ (∀ i, i < 4 → t.core (1024 + 4 * k + i) = Core.cold ∧ t.stackOf (4 * k + i) = []) ∧
        t.get F.CTL_STAT_ticket k = ticket ∧ t.get F.CTL_STAT_result k = 1 ∧ t.ctlMem = s.ctlMem ∧ t.dram = s.dram)) ∧
    ((s.cluster k).held = true → ∀ (fromDram cs : Bool) (a : Nat), a < 2 ^ 48 →
      s.imageAddr (if fromDram then .dram a else .flash (bnat cs) a) = true →
      Completes (.clusterLoad m k ticket fromDram cs a) s (fun t =>
        (t.cluster k).load = some ⟨2, ticket, bnat fromDram, bnat cs, a, none⟩ ∧ (t.cluster k).held = true ∧
        t.get F.CTL_STAT_ticket k = ticket ∧ t.get F.CTL_STAT_result k = 0 ∧ regsKept s t [.CTL_STAT] ∧
        t = { s with regs := t.regs, bus := ⟨0, 0⟩, sys := t.sys })) ∧
    ((s.cluster k).held = true → (s.cluster k).image = true →
      Completes (.runCluster m k ticket) s (fun t =>
        (t.cluster k).held = false ∧ (∀ i, i < 4 → t.core (1024 + 4 * k + i) =
          { Core.cold with held := false, started := true, psr := 1, pc := (stnWindow + k * 0x800000) / 16 + (s.cluster k).entry }) ∧
        t.get F.CTL_STAT_ticket k = ticket ∧ t.get F.CTL_STAT_result k = 1 ∧ regsKept s t [.CTL_STAT] ∧
        t = { s with regs := t.regs, bus := ⟨0, 0⟩, sys := t.sys, cores := t.cores }))) ∧
  (∀ (s : State) (k : Nat) (q : Cmd), k < 4 → (s.cluster k).load = some q →
    let src := if q.a = 1 then ImageSrc.dram q.c else ImageSrc.flash q.b q.c
    (s.imageOk src = true → Completes (.clusterLoadComplete k) s (fun t =>
      t.ctlMem = Mem.sets dflt s.ctlMem (k * 0x800000) (s.imageBytes 512 (numAt (s.imageBytes 0 512 src) 12 4) src) ∧
      (t.cluster k).image = true ∧ (t.cluster k).load = none ∧ (t.cluster k).entry = numAt (s.imageBytes 0 512 src) 16 8 ∧
      t.get F.CTL_STAT_result k = 1 ∧ regsKept s t [.CTL_STAT] ∧ t = { s with regs := t.regs, ctlMem := t.ctlMem, sys := t.sys })) ∧
    (s.imageOk src = false → Completes (.clusterLoadComplete k) s (fun t =>
      t.ctlMem = s.ctlMem ∧ (t.cluster k).load = none ∧
      ∃ u : State, u.get F.CTL_STAT_result k = 3 ∧ t = u.logEv 0x0601 (0x180 + k) 0 6 [] ∧
        u = { s with regs := u.regs, sys := u.sys })))

/-- PORST_N low: every register reads its reset value, every log ring slot is free, no core runs and no port link is up; what the
model keeps besides is the flash, the datum store, what stands on input lands, and its own fields (18 R406, R412). That DRAM,
whose contents the rule leaves not defined, reads as unlisted is the model's choice, log entry 5. SYSRST_N low outside PORST_N:
every register returns to its reset value but those that survive, and DRAM, the channels' training, MEM_BAND, MEM_EXCL, MEM_GUARD
and the log ring survive, with every trained channel in self-refresh; while PORST_N is low it has no further effect (18 R407; 16
R374).
Completion is stated for PORST_ASSERT and SYSRST_ASSERT. -/
def Obligations.ResetsLeaveTheirState : Prop :=
  (∀ s : State, Completes .porstAssert s (fun t =>
      (∀ n u i, t.reg n u i = resetReg ⟨n, u, i⟩) ∧ t.log = LogBook.start ∧ t.queues = [] ∧ t.cores = [] ∧
      t.sys.porst = true ∧ t.sys.pcie = [false, false] ∧ t.sys.alive = false ∧ t.mtb.ppsOut = false ∧ t.mtb.frameOut = [] ∧
      t.flash = s.flash ∧ t.sheets = s.sheets ∧ t.out = s.out ∧ t.pending = s.pending)) ∧
  (∀ s : State,
      (s.sys.porst = false → SMap.rising s.regs = true →
        Completes .sysrstAssert s (fun t =>
          t.dram = s.dram ∧ t.mem.bands = s.mem.bands ∧ t.log.ring = s.log.ring ∧ t.log.capture = s.log.capture ∧
          t.sys.sysrst = true ∧ t.sys.pcie = [false, false] ∧ t.queues = [] ∧ t.cores = [] ∧
          (∀ r : RegAddr, r.valid → survives r.name = false → r.name ≠ .PWR_STATUS → t.reg r.name r.unit r.idx = resetReg r) ∧
          (∀ r : RegAddr, r.valid → survives r.name = true → r.name ≠ .MEM_CHAN_STAT → t.reg r.name r.unit r.idx = s.reg r.name r.unit r.idx) ∧
          (∀ n c, n < 32 → c < 8 → t.get F.MEM_CHAN_STAT_state n c =
            (if s.get F.MEM_CHAN_STAT_state n c = 0 then 2 else s.get F.MEM_CHAN_STAT_state n c)))) ∧
      (s.sys.porst = true → Completes .sysrstAssert s (fun t => t = { s with sys := { s.sys with sysrst := true } })))

/-- At the release of PORST_N the datum sheet in force gives the oscillator trim, the asymmetries and the sensor trims, and training
starts on all 256 channels; without a valid sheet the defaults hold and record 0x0501 is raised; at the release of SYSRST_N each
channel in self-refresh leaves it (17 R401; 18 R407, R411). Boot tries first the image of the greater version, chip select 0 on a
tie; an image that verifies is run on cluster 0 and reported as 1 + its chip select; a first failure raises record 0x0602 and
leaves the other to try, a second ends the boot with result 3 and record 0x0603, and the interfaces go as in reset while no cluster
runs (18 R408, R412). A PCIe link comes up outside reset and
without a thermal trip (18 R411, R412).
Completion is stated for PORST_RELEASE, SYSRST_RELEASE, BOOT_IMAGE_CHECK and PCIE_LINK_UP. -/
def Obligations.StartUpBootsAnImage : Prop :=
  ((∀ s : State, s.sys.porst = true →
      Completes .porstRelease s (fun t =>
        t.sys.porst = false ∧ (∀ n c, n < 32 → c < 8 → t.get F.MEM_CHAN_STAT_state n c = 1) ∧
        (∀ k, s.sheetInForce = some k → ∀ i, i < 512 →
          t.reg .MTB_ASYM 0 i = BitVec.ofNat 64 (numAt (s.sheetCopyBytes k) (16896 + 8 * i) 8)) ∧
        (∀ k, s.sheetInForce = some k → t.mtb.trim = signed 40 (numAt (s.sheetCopyBytes k) 16 5) ∧
          t.sys.trims = sheetTrims (s.sheetCopyBytes k) ∧ t.get F.PWR_DATUM_STAT_valid = 1 ∧ t.get F.PWR_DATUM_STAT_defaults = 0) ∧
        (s.sheetInForce = none → t.get F.PWR_DATUM_STAT_defaults = 1 ∧ t.get F.PWR_DATUM_STAT_valid = 0) ∧
        t.mtb.time = 0 ∧ t.dram = s.dram ∧ t.pending = s.pending)) ∧
    (∀ s : State, s.sys.porst = false → s.sys.sysrst = true →
      Completes .sysrstRelease s (fun t =>
        t.sys.sysrst = false ∧ (∀ n c, n < 32 → c < 8 → t.get F.MEM_CHAN_STAT_state n c =
          (if s.get F.MEM_CHAN_STAT_state n c = 2 then 0 else s.get F.MEM_CHAN_STAT_state n c)) ∧
        t.mtb.time = 0 ∧ t.dram = s.dram ∧ t.log.ring = s.log.ring))) ∧
  ((∀ s : State, s.inReset = false → s.sys.bootDone = false → s.sys.bootTried < 2 →
      let cs := if s.sys.bootTried = 0 then s.bootFirst else 1 - s.bootFirst
      (s.imageOk (.flash cs 0) = true → Completes .bootImageCheck s (fun t =>
        t.sys.bootDone = true ∧ t.get F.PWR_BOOT_STAT_result = 1 + cs ∧ (t.cluster 0).held = false ∧
        t.get F.PWR_BOOT_STAT_image_ver = numAt (s.imageBytes 0 512 (.flash cs 0)) 8 4 ∧
        (∀ i, i < 4 → (t.core (1024 + i)).started = true ∧ (t.core (1024 + i)).psr = 1) ∧
        t.dram = s.dram ∧ regsKept s t [.PWR_BOOT_STAT, .CTL_STAT])) ∧
      (s.imageOk (.flash cs 0) = false → s.sys.bootTried = 0 → Completes .bootImageCheck s (fun t =>
        t = ({ s with sys := { s.sys with bootTried := 1 } } : State).logEv 0x0602 0x006 0 5 [])) ∧
      (s.imageOk (.flash cs 0) = false → s.sys.bootTried = 1 → Completes .bootImageCheck s (fun t =>
        ∃ u v : State, v = u.logEv 0x0603 0x006 0 7 [] ∧ t = (if v.dark then v.lanesDown else v) ∧
          u.get F.PWR_BOOT_STAT_result = 3 ∧ u.sys.bootDone = true ∧
          u = { s with regs := u.regs, sys := u.sys } ∧ regsKept s u [.PWR_BOOT_STAT]))) ∧
    (∀ s : State, s.bootVersion 0 = none → s.bootFirst = 0) ∧
    (∀ (s : State) (a b : Nat), s.bootVersion 0 = some a → s.bootVersion 1 = some b → s.bootFirst = if a < b then 1 else 0) ∧
    (∀ (s : State) (h : Nat), h < 2 → s.inReset = false → s.sys.tripped = false → s.sys.pcie.length = 2 →
      Completes (.pcieLinkUp h) s (fun t => t = { s with sys := { s.sys with pcie := setAt s.sys.pcie h true } } ∧ t.sys.pcie[h]? = some true)))

/-- ALIVE: an accepted kick starts it and feeds it, but leaves it low while the interfaces are as in reset; it toggles every 500 µs
while fed, it stops low with record 0x0508 and alive_lost when alive_ms passes without a kick, and a kick of the same cycle counts;
twin_ok reads 1 from an edge on TWIN_ALIVE_IN until 3 ms pass without one (18 R412, R413). A fall of PWRFAIL_N sets pwrfail and
starts the power-fail flush of what is unflushed while flash is enabled (18 R414; 16 R379); a poll shows each named rail's voltage
and current, keeps both where the regulator does not answer, and sets reg_fault at the third miss in succession (18 R415); AVS moves
VDD_CORE by at most 5 mV toward the node's choice within 650 to 800 mV, from the end of boot (18 R416).
Completion is stated for ALIVE_KICK, ALIVE_TOGGLE, ALIVE_EXPIRY, TWIN_ALIVE_EDGE, TWIN_ALIVE_TIMEOUT, PWRFAIL_FALL, REGULATOR_POLL and
AVS_UPDATE. -/
def Obligations.AliveRailsAndPowerFail : Prop :=
  ((∀ (s : State) (m : Master) (v : Reg64), s.admits m →
      (s.dark = false → Completes (.aliveKick m v) s (fun t =>
        t.sys = { s.sys with kickAt := s.upNs, aliveOn := true, aliveAt := if s.sys.aliveOn then s.sys.aliveAt else s.upNs } ∧
        t.get F.PWR_ALIVE_alive_ms = fld v 15 0 ∧ t = { s with regs := t.regs, bus := ⟨0, 0⟩, sys := t.sys } ∧ regsKept s t [.PWR_ALIVE])) ∧
      (s.dark = true → Completes (.aliveKick m v) s (fun t =>
        t.get F.PWR_ALIVE_alive_ms = fld v 15 0 ∧ t = { s with regs := t.regs, bus := ⟨0, 0⟩ } ∧ regsKept s t [.PWR_ALIVE]))) ∧
    (∀ s : State, s.sys.aliveOn = true → s.sys.aliveAt + 500000 ≤ s.upNs →
      Completes .aliveToggle s (fun t => t = { s with sys := { s.sys with alive := !s.sys.alive, aliveAt := s.sys.aliveAt + 500000 } })) ∧
    (∀ s : State, s.kickMet = false → s.sys.aliveOn = true → s.sys.kickAt + max 1 (s.get F.PWR_ALIVE_alive_ms) * 10 ^ 6 ≤ s.upNs →
      Completes .aliveExpiry s (fun t => ∃ u : State, t = u.logEv 0x0508 0x005 0 6 [] ∧
        u = { s with regs := u.regs, sys := { s.sys with aliveOn := false, alive := false } } ∧
        u.get F.PWR_STATUS_alive_lost = 1 ∧ regsKept s u [.PWR_STATUS])) ∧
    (∀ s : State, s.kickMet = true → Completes .aliveExpiry s (fun t => t = s)) ∧
    (∀ s : State, Completes .twinAliveEdge s (fun t => t.get F.PWR_STATUS_twin_ok = 1 ∧ regsKept s t [.PWR_STATUS] ∧
        t = { s with regs := t.regs, sys := { s.sys with twinAt := some s.upNs } })) ∧
    (∀ (s : State) (e : Nat), s.sys.twinAt = some e → e + 3 * 10 ^ 6 ≤ s.upNs →
      Completes .twinAliveTimeout s (fun t => t.get F.PWR_STATUS_twin_ok = 0 ∧ regsKept s t [.PWR_STATUS] ∧ t = { s with regs := t.regs }))) ∧
  ((∀ s : State, Completes .pwrfailFall s (fun t => t.get F.PWR_STATUS_pwrfail = 1 ∧
        (s.flag F.LOG_FLASH_en = true → s.unflushed ≠ 0 → ∃ l, t.log.flush = some ⟨l, true⟩) ∧
        (s.flag F.LOG_FLASH_en = false → t.log.flush = s.log.flush) ∧
        t.dram = s.dram ∧ t.flash = s.flash ∧ t.queues = s.queues ∧ t.fwd = s.fwd)) ∧
    (∀ (s : State) (answers : List (Option (Nat × Nat))), Completes (.regulatorPoll answers) s (fun t =>
        (∀ r, r < 8 → s.flag F.PWR_RAIL_en 0 r = false →
          t.reg .PWR_RAIL 0 r = s.reg .PWR_RAIL 0 r ∧ t.sys.misses.get? r = s.sys.misses.get? r) ∧
        (∀ r v i, r < 8 → s.flag F.PWR_RAIL_en 0 r = true → answers[r]? = some (some (v, i)) → v < 2 ^ 16 → i < 2 ^ 16 →
          t.get F.PWR_RAIL_vout_mv 0 r = v ∧ t.get F.PWR_RAIL_iout_a 0 r = i ∧ t.sys.misses.get? r = (s.sys.misses.del r).get? r) ∧
        (∀ r, r < 8 → s.flag F.PWR_RAIL_en 0 r = true → (answers[r]?).getD none = none →
          t.reg .PWR_RAIL 0 r = s.reg .PWR_RAIL 0 r ∧ t.sys.misses.get? r = some (s.sys.misses.getD r 0 + 1) ∧
          (s.sys.misses.getD r 0 = 2 → t.get F.PWR_STATUS_reg_fault = 1)) ∧
        regsKept s t [.PWR_RAIL, .PWR_STATUS, .LOG_CNT, .LOG_STATUS] ∧
        t = { s with regs := t.regs, log := t.log, sys := { s.sys with misses := t.sys.misses } })) ∧
    (∀ (s : State) (target : Nat), s.sys.bootDone = true →
      Completes (.avsUpdate target) s (fun t =>
        (650 ≤ s.get F.PWR_MEAS_vcore_mv → s.get F.PWR_MEAS_vcore_mv ≤ 800 →
          650 ≤ t.get F.PWR_MEAS_vcore_mv ∧ t.get F.PWR_MEAS_vcore_mv ≤ 800) ∧
        t.get F.PWR_MEAS_vcore_mv ≤ s.get F.PWR_MEAS_vcore_mv + 5 ∧ s.get F.PWR_MEAS_vcore_mv ≤ t.get F.PWR_MEAS_vcore_mv + 5 ∧
        (s.get F.PWR_MEAS_vcore_mv ≤ target + 5 → target ≤ s.get F.PWR_MEAS_vcore_mv + 5 → 650 ≤ target → target ≤ 800 →
          t.get F.PWR_MEAS_vcore_mv = target) ∧
        t.out = s.out ++ [.avs (t.get F.PWR_MEAS_vcore_mv)] ∧ regsKept s t [.PWR_MEAS] ∧ t = { s with regs := t.regs, out := t.out })) ∧
    (∀ (s : State) (target : Nat), s.sys.bootDone = false → Completes (.avsUpdate target) s (fun t => t = s)))

/-- Each power estimate rewrites DIS_SCALE by the pseudocode of 18 R417: lowered in proportion while E exceeds the cap, raised by
2,048 at the first estimate of a tick at or below 15/16 of it, and capped tells whether it is below 65,536. The hottest sensor (18
R419): above warn_c it sets therm_warn with record 0x0504 and the working cap falls by a sixteenth of cap_w each millisecond;
below warn_c - 5 the cap is whole again; at 115 °C THERMTRIP_N goes low with record 0x0505 and the host links, ALIVE, PPS_OUT and
FRAME_OUT go as under PORST_N. Gating and waking (18 R418): a station or codec core that may gate shows state 4 or 7, and a gated
one with work chosen for it shows state 0 again, with nothing else of the station touched.
Completion is stated for POWER_ESTIMATE, POWER_GATE, POWER_WAKE, THERMAL_WARN, THERMAL_CAP_STEP and THERMTRIP. -/
def Obligations.PowerEstimatesAndHeatLowerTheCap : Prop :=
  (∀ (s : State) (e : Nat), e < 2 ^ 16 →
      let k := s.get F.DIS_SCALE_scale
      let cap := s.workingCap
      let k' := if e > cap then max (s.get F.PWR_CAP_scale_min) (k * cap / e)
        else if 16 * e ≤ 15 * cap ∧ s.sys.firstEst = true then min 65536 (k + 2048) else k
      Completes (.powerEstimate e) s (fun t =>
        ∃ u : State, u = { s with regs := u.regs, sys := { s.sys with firstEst := false } } ∧
          u.get F.PWR_MEAS_est_w = e ∧ u.get F.DIS_SCALE_scale = k' % 2 ^ 17 ∧ u.get F.PWR_STATUS_capped = bnat (decide (k' < 65536)) ∧
          regsKept s u [.PWR_MEAS, .DIS_SCALE, .PWR_STATUS] ∧
          t = if k' < 65536 ∧ s.flag F.PWR_STATUS_capped = false then u.logEv 0x0503 0x005 0 4 [] else u)) ∧
  ((∀ (s : State) (h : Nat), h < 2 ^ 8 → s.get F.PWR_THERM_warn_c < h → s.sys.warm = false → Completes (.thermalWarn h) s (fun t =>
      ∃ u : State, t = u.logEv 0x0504 0x005 0 5 [] ∧ u = { s with regs := u.regs, sys := { s.sys with warm := true, capAt := s.upNs } } ∧
        u.get F.PWR_STATUS_therm_warn = 1 ∧ u.get F.PWR_MEAS_hot_c = h ∧ regsKept s u [.PWR_STATUS, .PWR_MEAS])) ∧
    (∀ (s : State) (h : Nat), h < 2 ^ 8 → s.sys.warm = true → s.get F.PWR_THERM_warn_c ≤ h + 5 → s.sys.capAt + 10 ^ 6 ≤ s.upNs →
      s.sys.capWork < 16 → Completes (.thermalCapStep h) s (fun t =>
        t = { s with regs := t.regs, sys := { s.sys with capWork := s.sys.capWork + 1, capAt := s.sys.capAt + 10 ^ 6 } } ∧
        regsKept s t [.PWR_MEAS] ∧ t.workingCap = s.get F.PWR_CAP_cap_w - s.get F.PWR_CAP_cap_w * (s.sys.capWork + 1) / 16)) ∧
    (∀ (s : State) (h : Nat), h < 2 ^ 8 → s.sys.warm = true → h + 5 < s.get F.PWR_THERM_warn_c → Completes (.thermalCapStep h) s (fun t =>
        t = { s with regs := t.regs, sys := { s.sys with warm := false, capWork := 0 } } ∧ regsKept s t [.PWR_MEAS] ∧
        t.workingCap = s.get F.PWR_CAP_cap_w)) ∧
    (∀ (s : State) (h : Nat), h < 2 ^ 8 → 115 ≤ h → s.sys.tripped = false → Completes (.thermtrip h) s (fun t =>
        t.sys.tripped = true ∧ t.sys.pcie = [false, false] ∧ t.sys.alive = false ∧ t.mtb.ppsOut = false ∧ t.mtb.frameOut = [] ∧
        t.dram = s.dram ∧ t.sheets = s.sheets))) ∧
  ((∀ (s : State) (n : Nat), n < 128 → s.mayGate .station n = true → Completes (.powerGate .station n) s (fun t =>
        t = s.put F.DIS_STN_STATE_state 4 0 n ∧ t.get F.DIS_STN_STATE_state 0 n = 4)) ∧
    (∀ (s : State) (n : Nat), n < 64 → s.mayGate .codec n = true → Completes (.powerGate .codec n) s (fun t =>
        t = s.put F.VCC_STATUS_state 7 n ∧ t.get F.VCC_STATUS_state n = 7)) ∧
    (∀ (s : State) (n c : Nat), n < 128 → c < 4 → s.get F.DIS_STN_STATE_state 0 n = 4 → (s.slotOf (4 * n + c)).isSome = true →
      Completes (.powerWake .station n) s (fun t => t = s.put F.DIS_STN_STATE_state 0 0 n ∧ t.get F.DIS_STN_STATE_state 0 n = 0)) ∧
    (∀ (s : State) (n j : Nat), n < 64 → j < 4 → s.get F.VCC_STATUS_state n = 7 → s.flag F.VCC_JOBQ_en n j = true →
      (s.headJob (s.get F.VCC_JOBQ_queue n j)).isSome = true →
      Completes (.powerWake .codec n) s (fun t => t.get F.VCC_STATUS_state n ≠ 7 ∧ onlyRegs s t ∧ regsKept s t [.VCC_STATUS])))

/-- One meridian cycle is the pseudocode of 02 R43, in units of 2^-16 / K ns with K = 65536 * 10^9 + trim: f is the learned rate in
HOLDOVER and freq_adj otherwise, held to the slew limit; p is sign(remain) * absorb_ppb outside HOLDOVER, and yields to the limit;
the gain never passes remain. Nothing but the meridian's time changes. Advancing is additive: n cycles and then k more are n + k
cycles, while no register is written between them (02 R43).
Completion is stated for MERIDIAN_ADVANCE. -/
def Obligations.CycleFollowsPseudocode : Prop :=
  (∀ s : State, -(65536 * 10 ^ 9 : Int) < s.mtb.trim → (s.mtb.remain.natAbs ≤ s.mtb.time ∧ s.mtb.remain.natAbs ≤ s.mtb.up) →
      let lim : Int := 65536 * (s.get F.MTB_SLEW_LIMIT_slew_ppb : Int)
      let hold : Prop := s.get F.MTB_STATUS_state = 2
      ∀ raw f p gain : Int,
        (hold → raw = signed 40 (s.get F.MTB_RATE_LEARNED_rate_learned)) →
        (¬ hold → raw = signed 40 (s.get F.MTB_VERNIER_freq_adj)) →
        f = max (-lim) (min raw lim) →
        (hold → p = max (-lim) (min f lim) - f) →
        (¬ hold → p = max (-lim) (min (f + 65536 * s.mtb.remain.sign * (s.get F.MTB_PHASE_ADJ_absorb_ppb : Int)) lim) - f) →
        gain = (if (40960 * p).natAbs > s.mtb.remain.natAbs then s.mtb.remain else 40960 * p) →
        lim < 65536 * 10 ^ 9 →
        Completes (.meridianAdvance 1) s (fun t =>
          (t.mtb.time : Int) = s.mtb.time + 40960 * (65536 * 10 ^ 9 + f) + gain ∧ t.mtb.remain = s.mtb.remain - gain ∧
          t = { s with mtb := { s.mtb with time := t.mtb.time, up := t.mtb.up, remain := t.mtb.remain, learnSkip := t.mtb.learnSkip } })) ∧
  (∀ (s : State) (n k : Nat), s.mtb.remain.natAbs ≤ s.mtb.time → s.mtb.remain.natAbs ≤ s.mtb.up →
      (State.advance k (State.advance n s)).mtb.time = (State.advance (n + k) s).mtb.time ∧
      (State.advance k (State.advance n s)).mtb.up = (State.advance (n + k) s).mtb.up ∧
      (State.advance k (State.advance n s)).mtb.remain = (State.advance (n + k) s).mtb.remain)

/-- The states of the meridian (02 R42, R46, R48, R53): LOCK, HOLDOVER, RELOCK and RUN are accepted writes of MTB_CTRL with their bit
set, whatever the other bits hold. Lock is taken in FREE, holdover in LOCKED, relock in HOLDOVER, and each is ignored in any other
state; entering HOLDOVER sets hold_evt; none of them steps time or changes remain; run is set by its bit and rests; the oscillator
is chosen in FREE alone (02 R41); learn_en and domain take the written values. That a write of several bits is judged against the
state before it is the model's choice, log entry 26. A write of MTB_VERNIER sets freq_adj and refreshes the watchdog (02 R46). The
set (02 R45): accepted in FREE with step_used 0, run 0 and ns below 10^9, it loads the time exactly, clears remain, sets step_used
and enters LOCKED; otherwise the time stays, step_result reads 2 and record 0x0102 is raised at severity 4. The premise on the oscillator trim, a
number of 40 bits, is part of the forms that EveryStepKeepsTheForms states.
Completion is stated for LOCK, HOLDOVER, RELOCK, RUN, VERNIER_WRITE and SET. -/
def Obligations.ClockStatesAndSet : Prop :=
  (∀ (s : State) (m : Master) (v w : Reg64) (c : Instr), s.admits m →
      (c, w) ∈ [(.lock m v, v ||| 1), (.holdover m v, v ||| 2), (.relock m v, v ||| 4), (.run m v, v ||| 0x80)] →
      let st := s.get F.MTB_STATUS_state
      Completes c s (fun t =>
        t.get F.MTB_STATUS_state = (if st = 0 ∧ bit w 0 = true then 1 else if st = 1 ∧ bit w 1 = true then 2
          else if st = 2 ∧ bit w 2 = true then 1 else st) ∧
        (st = 1 → bit w 1 = true → t.get F.MTB_STATUS_hold_evt = 1) ∧
        (st ≠ 1 ∨ bit w 1 = false → t.get F.MTB_STATUS_hold_evt = s.get F.MTB_STATUS_hold_evt) ∧
        (bit w 7 = true → t.get F.MTB_CTRL_run = 1) ∧ (bit w 7 = false → t.get F.MTB_CTRL_run = s.get F.MTB_CTRL_run) ∧
        t.get F.MTB_CTRL_learn_en = fld w 3 3 ∧ t.get F.MTB_CTRL_domain = fld w 23 16 ∧
        t.get F.MTB_CTRL_osc_sel = (if st ≠ 0 then s.get F.MTB_CTRL_osc_sel else if s.mtb.oscPresent then fld w 8 8 else 0) ∧
        t.mtb.time = s.mtb.time ∧ t.mtb.up = s.mtb.up ∧ t.mtb.remain = s.mtb.remain ∧
        regsKept s t [.MTB_CTRL, .MTB_STATUS, .LOG_CNT, .LOG_STATUS] ∧
        t = { s with regs := t.regs, log := t.log, bus := ⟨0, 0⟩, mtb := t.mtb })) ∧
  (∀ (s : State) (m : Master) (v : Reg64), s.admits m →
      Completes (.vernierWrite m v) s (fun t => t.get F.MTB_VERNIER_freq_adj = fld v 39 0 ∧ t.mtb = { s.mtb with vernierAt := s.upNs } ∧
        regsKept s t [.MTB_VERNIER] ∧ t = { s with regs := t.regs, bus := ⟨0, 0⟩, mtb := t.mtb })) ∧
  (∀ (s : State) (m : Master) (v : Reg64), s.admits m →
      let ok := s.get F.MTB_STATUS_state = 0 ∧ s.get F.MTB_STATUS_step_used = 0 ∧ s.get F.MTB_CTRL_run = 0 ∧ fld v 63 32 < 10 ^ 9
      (ok → (-(2 ^ 39) : Int) ≤ s.mtb.trim → Completes (.set m v) s (fun t =>
        t.nanos = s.get F.MTB_SET_SEC_sec * 10 ^ 9 + fld v 63 32 ∧ t.frac = fld v 31 16 ∧ t.mtb.remain = 0 ∧
        t.get F.MTB_STATUS_step_used = 1 ∧ t.get F.MTB_STATUS_step_result = 1 ∧ t.get F.MTB_STATUS_state = 1 ∧ t.mtb.up = s.mtb.up ∧
        regsKept s t [.MTB_STATUS] ∧ t = { s with regs := t.regs, bus := ⟨0, 0⟩, mtb := t.mtb })) ∧
      (¬ ok → Completes (.set m v) s (fun t =>
        t.mtb = s.mtb ∧ t.get F.MTB_STATUS_step_result = 2 ∧ t.get F.MTB_STATUS_state = s.get F.MTB_STATUS_state ∧
        regsKept s t [.MTB_STATUS, .LOG_CNT, .LOG_STATUS] ∧
        ∃ u : State, t = (u.logEv 0x0102 1 0 4 (snapOf u.mtbStatusView ++ snapOf (u.reg .MTB_SET_SEC))).answerBus 0 0 ∧
          u = { s with regs := u.regs })))

/-- The watchdog enters HOLDOVER from LOCKED with auto when no vernier write came for timeout_ms, with hold_evt and record 0x0103 (02
R46), unless an accepted write of the same cycle keeps it (02 R44); the learned rate moves by the truncated difference over 2^learn_tau once per second (02 R47). The oscillator (02 R41): a
stop of TIME_OSC_IN, or a write that selects it where no signal is present, falls back to OSC_IN with osc_lost; osc_sel is written
in state FREE alone; no change of oscillator steps time.
Completion is stated for OSC_FALLBACK, OSC_SEL_WRITE, HOLDOVER_WATCHDOG_EXPIRY and RATE_LEARNING_UPDATE. -/
def Obligations.HoldoverLearningAndOscillator : Prop :=
  ((∀ s : State, s.watchdogMet = false → s.get F.MTB_STATUS_state = 1 → s.flag F.MTB_HOLD_auto = true →
      s.mtb.vernierAt + s.get F.MTB_HOLD_timeout_ms * 10 ^ 6 ≤ s.upNs →
      Completes .holdoverWatchdogExpiry s (fun t => t.get F.MTB_STATUS_state = 2 ∧ t.get F.MTB_STATUS_hold_evt = 1 ∧ t.mtb = s.mtb ∧
        regsKept s t [.MTB_STATUS, .LOG_CNT, .LOG_STATUS] ∧ t = { s with regs := t.regs, log := t.log } ∧
        ((∀ e ∈ s.log.capture, e.code ≠ 0x0103) → s.log.capture.length < 16 →
          ∃ e, t.log.capture = s.log.capture ++ [e] ∧ e.code = 0x0103 ∧ e.severity = 5))) ∧
    (∀ s : State, s.get F.MTB_STATUS_state = 1 → s.flag F.MTB_CTRL_learn_en = true → s.mtb.learnedSec ≠ s.nanos / 10 ^ 9 →
      s.mtb.learnSkip = false →
      Completes .rateLearningUpdate s (fun t =>
        signed 40 (t.get F.MTB_RATE_LEARNED_rate_learned) = signed 40 (s.get F.MTB_RATE_LEARNED_rate_learned) +
          (signed 40 (s.get F.MTB_VERNIER_freq_adj) - signed 40 (s.get F.MTB_RATE_LEARNED_rate_learned)).tdiv
            (2 ^ min 12 (s.get F.MTB_HOLD_learn_tau)) ∧
        regsKept s t [.MTB_RATE_LEARNED] ∧ t = { s with regs := t.regs, mtb := { s.mtb with learnedSec := s.nanos / 10 ^ 9 } }))) ∧
  ((∀ s : State, s.flag F.MTB_CTRL_osc_sel = true → Completes .oscFallback s (fun t =>
        t.get F.MTB_CTRL_osc_sel = 0 ∧ t.get F.MTB_STATUS_osc_lost = 1 ∧ t.mtb = { s.mtb with oscPresent := false } ∧
        regsKept s t [.MTB_CTRL, .MTB_STATUS, .LOG_CNT, .LOG_STATUS] ∧ t = { s with regs := t.regs, log := t.log, mtb := t.mtb })) ∧
    (∀ (s : State) (m : Master) (v : Reg64), s.admits m → v &&& 0x87 = 0 →
      Completes (.oscSelWrite m true v) s (fun t => t.mtb.time = s.mtb.time ∧ t.mtb.remain = s.mtb.remain ∧
        t.get F.MTB_CTRL_osc_sel = (if s.get F.MTB_STATUS_state = 0 then fld v 8 8 else s.get F.MTB_CTRL_osc_sel)) ∧
      (s.get F.MTB_STATUS_state = 0 → bit v 8 = true → Completes (.oscSelWrite m false v) s (fun t =>
        t.mtb.time = s.mtb.time ∧ t.get F.MTB_CTRL_osc_sel = 0 ∧ t.get F.MTB_STATUS_osc_lost = 1))))

/-- A raster's enable (02 R53): refused, with raster_err, where num/den lies outside 23.976 to 120 Hz or lines outside 1 to 8,192; a legal one is enabled with the values written.
That a refused write stores num and den is the model's choice (log 25). A read of
MTB_TIME_SEC answers the seconds and latches the same instant for the reader's MTB_TIME_NS (02 R61). PPS (02 R60): the output
rises once at each whole second while enabled, for width_ns, and falls when it has passed, and stays low while the interfaces are as
in reset (18 R412); an input edge latches the time unless
one was latched within the last 500 ms.
Completion is stated for TIME_SEC_READ, RASTER_ENABLE, PPS_OUT_RISE, PPS_OUT_FALL and PPS_IN_EDGE. -/
def Obligations.RastersAndPulses : Prop :=
  ((∀ (s : State) (m : Master) (k : Nat) (v : Reg64), k < 8 → s.admits m → s.flag F.MTB_RASTER_RATE_en 0 k = false →
      Completes (.rasterEnable m k v) s (fun t =>
        t.get F.MTB_RASTER_RATE_num 0 k = fld v 55 32 ∧ t.get F.MTB_RASTER_RATE_den 0 k = fld v 23 0 ∧
        t.flag F.MTB_RASTER_RATE_en 0 k = s.rasterLegal k (fld v 55 32) (fld v 23 0) ∧
        (s.rasterLegal k (fld v 55 32) (fld v 23 0) = false → t.get F.MTB_STATUS_raster_err = 1) ∧
        regsKept s t [.MTB_RASTER_RATE, .MTB_STATUS] ∧ t = { s with regs := t.regs, bus := ⟨0, 0⟩, mtb := t.mtb } ∧ t.mtb.time = s.mtb.time)) ∧
    (∀ (s : State) (m : Master), s.reaches m = true → (∀ n, m = .ctl n → n < 16) → Completes (.timeSecRead m) s (fun t =>
        t.bus = ⟨BitVec.ofNat 64 (s.nanos / 10 ^ 9 % 2 ^ 48), 0⟩ ∧ t.view m ⟨.MTB_TIME_NS, 0, 0⟩ = BitVec.ofNat 64 (s.nanos % 10 ^ 9 * 2 ^ 32 + s.frac * 2 ^ 16) ∧
        t = { s with bus := t.bus, mtb := { s.mtb with latches := t.mtb.latches } }))) ∧
  ((∀ s : State, s.dark = true → Completes .ppsOutRise s (fun t => t = s)) ∧
    (∀ s : State, s.dark = false → s.flag F.MTB_PPS_out_en = true → s.mtb.ppsSec ≠ s.nanos / 10 ^ 9 → Completes .ppsOutRise s (fun t =>
        t = { s with mtb := { s.mtb with ppsOut := true, ppsSec := s.nanos / 10 ^ 9, ppsFall := s.upNs + s.get F.MTB_PPS_width_ns } })) ∧
    (∀ s : State, s.mtb.ppsOut = true → s.mtb.ppsFall ≤ s.upNs → Completes .ppsOutFall s (fun t =>
        t = { s with mtb := { s.mtb with ppsOut := false } })) ∧
    (∀ s : State, s.flag F.MTB_PPS_in_en = true → (∀ e, s.mtb.ppsIn = some e → e + 500 * 10 ^ 6 ≤ s.upNs) → Completes .ppsInEdge s (fun t =>
        t.reg .MTB_PPS_IN_TS = BitVec.ofNat 64 (s.nanos / 10 ^ 9 % 2 ^ 16 * 2 ^ 48 + s.nanos % 10 ^ 9 * 2 ^ 16 + s.frac) ∧
        t.mtb.ppsIn = some s.upNs ∧ regsKept s t [.MTB_PPS_IN_TS] ∧ t = { s with regs := t.regs, mtb := { s.mtb with ppsIn := some s.upNs } })) ∧
    (∀ (s : State) (e : Nat), s.mtb.ppsIn = some e → s.upNs < e + 500 * 10 ^ 6 → Completes .ppsInEdge s (fun t => t = s)))

/-- A write to a transit entry takes the register's bits, but the reserved bits of MTB_TRN_WHEN of a raster entry, and keeps a message
already sent; an enabled m-time entry whose at the write leaves past is marked to fire at once, a raster entry fires only from now
on (02 R55, R58, R61). A firing's message leaves at most lead_ns ahead of its trigger, against message credit, the lower entry of a
shared trigger first, and is marked late later than 200 ns before it (02 R56, R57). At its trigger an entry fires: it counts in fires,
and in late with late_evt when late; a one-shot clears en, a periodic entry advances at, past the present where it was past, a raster
entry keeps its frame; action 0x3 raises FRAME_OUT for at least 10 ns, unless the interfaces are as in reset (02 R55, R59; 18 R412).
A firing's message is applied at its target once: at its trigger, or at arrival when it is late, the lower entry of a shared trigger
first (02 R56, R57, R59): a canvas is asked to commit, a task set is scheduled or released at the dispatcher, a gate cycle of the
port is scheduled, or begins now, and the head of a launch-time queue is released. Completion is stated for TRANSIT_ENTRY_WRITE,
FIRING_MESSAGE_ISSUE, TRANSIT_FIRE, FRAME_OUT_PULSE_END, FIRING_COMMIT_CANVAS, FIRING_START_TASK_SET, FIRING_OPEN_GATE_CYCLE and
FIRING_RELEASE_LAUNCH. -/
def Obligations.TransitsFireAndApplyOnce : Prop :=
  ((∀ (s : State) (m : Master) (i which : Nat) (v : Reg64), i < 4096 → s.admits m →
      let n : RegName := if which = 0 then .MTB_TRN_CTRL else if which = 1 then .MTB_TRN_WHEN else .MTB_TRN_ACT
      let x := if which = 1 ∧ s.flag F.MTB_TRN_CTRL_kind 0 i = true then putFld v 47 32 (fld (s.reg .MTB_TRN_WHEN 0 i) 47 32) else v
      Completes (.transitEntryWrite m i which v) s (fun t =>
        t.reg n 0 i = codedWrite n.info (s.reg n 0 i) x ∧ (t.aux i).sent = (s.aux i).sent ∧ (∀ j, j ≠ i → t.aux j = s.aux j) ∧
        (which ≤ 1 → t.flag F.MTB_TRN_CTRL_kind 0 i = true → (t.aux i).past = false ∧ (t.aux i).armed = s.nanos) ∧
        (which ≤ 1 → t.flag F.MTB_TRN_CTRL_kind 0 i = false →
          which = 1 ∨ s.flag F.MTB_TRN_CTRL_en 0 i = false ∨ s.flag F.MTB_TRN_CTRL_kind 0 i = true →
          (t.aux i).past = (t.flag F.MTB_TRN_CTRL_en 0 i && decide ((t.get F.MTB_TRN_WHEN_at 0 i + 2 ^ 64 - s.mtime) % 2 ^ 64 ≥ 2 ^ 63))) ∧
        (2 ≤ which → t.aux i = s.aux i) ∧
        keptBut s t [⟨n, 0, i⟩] ∧ t = { s with regs := t.regs, bus := ⟨0, 0⟩, mtb := { s.mtb with trn := t.mtb.trn } })) ∧
    (∀ (s : State) (i tr : Nat) (fr : Option Nat), i < 4096 → (s.aux i).sent = none → messaged (s.get F.MTB_TRN_ACT_action 0 i) = true →
      s.nextTrigger i = some (tr, fr) →
      (s.ahead tr fr.isSome ≤ s.get F.MTB_TRANSIT_LEAD_lead_ns → 10 ≤ s.credit → s.lowerWaits i (tr % 2 ^ 64) = false →
        Completes (.firingMessageIssue i) s (fun t =>
          t.mtb.firings = s.mtb.firings ++ [⟨i, s.get F.MTB_TRN_ACT_action 0 i, s.get F.MTB_TRN_ACT_operand 0 i, tr % 2 ^ 64,
            (s.aux i).past || decide (s.ahead tr fr.isSome < 200)⟩] ∧
          t.get F.MTB_TRN_STAT_sent 0 i = 1 ∧ t.mtb.tokens = s.credit - 10 ∧ keptBut s t [⟨.MTB_TRN_STAT, 0, i⟩] ∧
          t = { s with regs := t.regs, mtb := t.mtb })) ∧
      ((s.get F.MTB_TRANSIT_LEAD_lead_ns < s.ahead tr fr.isSome ∨ s.credit < 10 ∨ s.lowerWaits i (tr % 2 ^ 64) = true) →
        Completes (.firingMessageIssue i) s (fun t => t = s))) ∧
    (∀ (s : State) (i : Nat), s.flag F.MTB_TRN_CTRL_en 0 i = true → s.flag F.MTB_TRN_CTRL_kind 0 i = false →
      s.nextTrigger i = some (s.get F.MTB_TRN_WHEN_at 0 i, none)) ∧
    (∀ (s : State) (i tr : Nat) (fr : Option Nat), i < 4096 → (s.aux i).sent = none → messaged (s.get F.MTB_TRN_ACT_action 0 i) = false →
      s.nextTrigger i = some (tr, fr) → ((s.aux i).past = true ∨ s.due tr fr = true) →
      let p := s.get F.MTB_TRN_CTRL_period_us 0 i * 1000
      let at0 := s.get F.MTB_TRN_WHEN_at 0 i
      Completes (.transitFire i) s (fun t =>
        t.get F.MTB_TRN_STAT_fires 0 i = (s.get F.MTB_TRN_STAT_fires 0 i + 1) % 2 ^ (F.MTB_TRN_STAT_fires.hi + 1 - F.MTB_TRN_STAT_fires.lo) ∧
        ((s.aux i).past = true → t.get F.MTB_STATUS_late_evt = 1) ∧
        (fr = none → p = 0 → t.flag F.MTB_TRN_CTRL_en 0 i = false ∧ t.get F.MTB_TRN_WHEN_at 0 i = at0) ∧
        (fr = none → p ≠ 0 → t.flag F.MTB_TRN_CTRL_en 0 i = s.flag F.MTB_TRN_CTRL_en 0 i ∧
          t.get F.MTB_TRN_WHEN_at 0 i = (if (s.aux i).past then at0 + ((s.mtime + 2 ^ 64 - at0) % 2 ^ 64 / p + 1) * p else at0 + p) % 2 ^ 64) ∧
        (∀ f, fr = some f → (t.aux i).frame = some f ∧ t.get F.MTB_TRN_WHEN_at 0 i = at0 ∧
          t.flag F.MTB_TRN_CTRL_en 0 i = (s.flag F.MTB_TRN_CTRL_en 0 i && decide (s.get F.MTB_TRN_CTRL_every_n 0 i ≠ 0))) ∧
        (s.get F.MTB_TRN_ACT_action 0 i = 3 → s.dark = false →
          ∃ stop, t.mtb.frameOut.get? (s.get F.MTB_TRN_ACT_operand 0 i / 2 ^ 32 % 4) = some stop ∧ s.upNs + 10 ≤ stop) ∧
        regsKept s t [.MTB_TRN_STAT, .MTB_STATUS, .MTB_TRN_CTRL, .MTB_TRN_WHEN] ∧ t = { s with regs := t.regs, mtb := t.mtb } ∧
        t.mtb.time = s.mtb.time)) ∧
    (∀ (s : State) (i : Nat) (f : Firing), i < 4096 → (s.aux i).sent = some f →
      (f.late = true ∨ s.reached f.trigger = true → Completes (.transitFire i) s (fun t =>
        t.get F.MTB_TRN_STAT_fires 0 i = (s.get F.MTB_TRN_STAT_fires 0 i + 1) % 2 ^ (F.MTB_TRN_STAT_fires.hi + 1 - F.MTB_TRN_STAT_fires.lo) ∧
        (f.late = true → t.get F.MTB_STATUS_late_evt = 1) ∧ t.get F.MTB_TRN_STAT_sent 0 i = 0 ∧ (t.aux i).sent = none ∧
        regsKept s t [.MTB_TRN_STAT, .MTB_STATUS, .MTB_TRN_CTRL, .MTB_TRN_WHEN] ∧ t = { s with regs := t.regs, mtb := t.mtb } ∧
        t.mtb.time = s.mtb.time ∧ t.mtb.firings = s.mtb.firings)) ∧
      (f.late = false → s.reached f.trigger = false → Completes (.transitFire i) s (fun t => t = s))) ∧
    (∀ (s : State) (pin stop : Nat), s.mtb.frameOut.get? pin = some stop → stop ≤ s.upNs →
      Completes (.frameOutPulseEnd pin) s (fun t => t = { s with mtb := { s.mtb with frameOut := s.mtb.frameOut.del pin } }))) ∧
  (∀ (s : State) (i : Nat) (f : Firing) (pre rest : List Firing), s.mtb.firings = pre ++ f :: rest → f.entry = i →
      (∀ g ∈ pre, g.entry ≠ i ∨ g.action ≠ f.action) →
      let u : State := { s with mtb := { s.mtb with firings := pre ++ rest } }
      let inTime : Prop := (f.late = true ∨ s.reached f.trigger = true) ∧
        ∀ g ∈ s.mtb.firings, ¬ (g.trigger = f.trigger ∧ g.entry < f.entry)
      (f.action = 1 → inTime → Completes (.firingCommitCanvas i) s (fun t => t = u.commitRequest (f.operand / 1024 % 4) (f.operand % 1024))) ∧
      (f.action = 2 → Completes (.firingStartTaskSet i) s (fun t => t.mtb.firings = pre ++ rest ∧
        ((f.late = false ∨ atOrAfter s.mtb.tickAt f.trigger = false) →
          t = { u with dis := { s.dis with sets := s.dis.sets ++ [⟨f.operand % 4096, f.trigger, f.late⟩] } }) ∧
        (f.late = true → atOrAfter s.mtb.tickAt f.trigger = true → t = u.releaseSet (f.operand % 4096) s.mtime))) ∧
      (f.action = 4 → Completes (.firingOpenGateCycle i) s (fun t =>
        let g := t.gate (firingPort f.operand).1 (firingPort f.operand).2
        (if f.late then s.mtime else f.trigger) ∈ g.next ∧ g = { s.gate (firingPort f.operand).1 (firingPort f.operand).2 with next := g.next } ∧
        t = { u with ports := { s.ports with gates := t.ports.gates } })) ∧
      (f.action = 5 → inTime → Completes (.firingReleaseLaunch i) s (fun t =>
        (∀ h tl, s.ltQueue (firingPort f.operand).1 (firingPort f.operand).2 (f.operand % 8) = h :: tl →
          t.ltQueue (firingPort f.operand).1 (firingPort f.operand).2 (f.operand % 8) = { h with released := true } :: tl) ∧
        t = { u with ports := { s.ports with lt := t.ports.lt } })))

/-- PTP in hardware (02 R49, R50, R51): a received message is pushed whole with its corrected timestamp; a master port queues one Sync
in each interval; it answers a Delay_Req of the device's domain, and a peer-to-peer port a Pdelay_Req, with the request's sequence
number and port identity, a unicast Delay_Req to its sender; nothing else of the state changes. Completion is stated for
PTP_RECEIVE, SYNC_INTERVAL, DELAY_RESP and PDELAY_RESP. -/
def Obligations.PtpAnswersInHardware : Prop :=
  (∀ (s : State) (p : Nat) (msg : List Byte), Completes (.ptpReceive p msg) s (fun t => t = s.pushPtp p (s.rxStamp p) msg)) ∧
  (∀ (s : State) (p : Nat), p < 512 → s.get F.MTB_PTP_PORT_role 0 p = 1 → s.ptpSends p = true → s.mtb.syncAt.getD p 0 ≠ s.nanos / s.syncPeriod p →
    Completes (.syncInterval p) s (fun t =>
      t.mtb = { s.mtb with syncAt := s.mtb.syncAt.put p (s.nanos / s.syncPeriod p) } ∧
      (∃ o : PtpOut, t.ports.ptp.getD p [] = s.ports.ptp.getD p [] ++ [o] ∧ o.due = s.nanos ∧ o.dest = none ∧ o.msg[0]? = some 0 ∧ o.msg.length = 44) ∧
      t = { s with mtb := t.mtb, ports := { s.ports with ptp := t.ports.ptp } })) ∧
  (∀ (s : State) (p : Nat) (req : PtpRequest), p < 512 → s.get F.MTB_PTP_PORT_role 0 p = 1 → s.ptpAnswers p req.msg = true → 44 ≤ req.msg.length →
    Completes (.delayResp p req) s (fun t =>
      (∃ o : PtpOut, t.ports.ptp.getD p [] = s.ports.ptp.getD p [] ++ [o] ∧ o.due = s.nanos ∧ o.dest = req.sender ∧ o.msg[0]? = some 9 ∧
        (o.msg.drop 30).take 2 = (req.msg.drop 30).take 2 ∧ o.msg.drop 44 = (req.msg.drop 20).take 10) ∧
      t = { s with ports := { s.ports with ptp := t.ports.ptp } })) ∧
  (∀ (s : State) (p : Nat) (msg : List Byte), p < 512 → s.flag F.MTB_PTP_PORT_p2p 0 p = true → s.ptpAnswers p msg = true → 44 ≤ msg.length →
    Completes (.pdelayResp p msg) s (fun t =>
      (∃ o : PtpOut, t.ports.ptp.getD p [] = s.ports.ptp.getD p [] ++ [o] ∧ o.due = s.nanos ∧ o.msg[0]? = some 3 ∧
        (o.msg.drop 30).take 2 = (msg.drop 30).take 2 ∧ o.msg.drop 44 = (msg.drop 20).take 10) ∧
      t = { s with ports := { s.ports with ptp := t.ports.ptp } }))

/-- A charge adds to what the account has spent in that currency and to nothing else of it; the account is then exhausted exactly when
it is metered and left is below zero in some currency, a change is news for every consumer, and a consumer that has not heard the
change still acts on the news before it (10 R258, R263). An account that is exhausted has no task left in a slot: those it had are ready
again, and no other task of any account changes (10 R264, R267). Completion is stated for ACCOUNT_CHARGE and EXHAUSTION_NEWS. -/
def Obligations.ChargesExhaustAccounts : Prop :=
  (∀ (s : State) (a c n : Nat), a < 4096 → c < 4 →
    Completes (.accountCharge a c n) s (fun t =>
      ((t.acct a).cur c).spent = ((s.acct a).cur c).spent + n ∧ (∀ d, d < 4 → d ≠ c → (t.acct a).cur d = (s.acct a).cur d) ∧
      ((t.acct a).cur c).left = ((s.acct a).cur c).left - n ∧
      (∀ b, b ≠ a → t.acct b = s.acct b) ∧
      ((t.acct a).exhausted = true ↔ (s.acct a).metered = true ∧ ∃ d, d < 4 ∧ ((t.acct a).cur d).left < 0) ∧
      t.dis.news = s.dis.news ++ (if (t.acct a).exhausted = (s.acct a).exhausted then [] else [(a, (t.acct a).exhausted)]) ∧
      (∀ who, ((s.dis.heard.find? (fun e => e.1 == who)).map (·.2)).getD 0 ≤ s.dis.news.length → t.knowsOut who a = s.knowsOut who a) ∧
      ((t.acct a).exhausted = true → ∀ k ∈ t.dis.tasks, k.account = a → k.place = .ready ∨ ∃ n, k.place = .running n) ∧
      t.dis.tasks.map (fun k => { k with place := .ready }) = s.dis.tasks.map (fun k => { k with place := .ready }) ∧
      (∀ k ∈ s.dis.tasks, (∀ u ∈ s.dis.tasks, u.record = k.record → u.account ≠ a) → k ∈ t.dis.tasks) ∧
      ((t.acct a).exhausted = false → t.dis.tasks = s.dis.tasks ∧ t.dram = s.dram) ∧
      regsKept s t [.DIS_ACCT_STAT, .DIS_CNT, .MEM_MAP_ERR] ∧
      t = { s with regs := t.regs, dram := t.dram, dis := { s.dis with accts := t.dis.accts, news := t.dis.news, tasks := t.dis.tasks },
                   sys := { s.sys with idleAt := t.sys.idleAt } })) ∧
  (∀ (s : State) (who : Agent) (a : Nat) (out : Bool) (before after : List (Nat × Bool)),
    s.dis.news = before ++ (a, out) :: after → ((s.dis.heard.find? (fun e => e.1 == who)).map (·.2)).getD 0 = before.length →
    Completes (.exhaustionNews who) s (fun t =>
      t.knowsOut who a = out ∧ (∀ w, w ≠ who → ∀ b, t.knowsOut w b = s.knowsOut w b) ∧
      t = { s with dis := { s.dis with heard := t.dis.heard } }))

/-- At a tick boundary a currency takes its new effective grant and carries its reserve: with avail = g + reserve, the new reserve is
avail - spent held between minus one grant and (g * min(rq, 4)) div 16, and spent is zero (10 R260). A boundary that is due serves the
next multiple of the length in force, or the present m-time after a set; it takes the requested length where the boundary is a multiple
of the longer of the two (02 R45, R54); every account that has been charged or configured is renewed in its four currencies with its
grants, scaled by DIS_SCALE unless it is exempt, and its new configuration takes force (10 R260, R261), and no other account changes;
the task sets due at the boundary leave those that wait (10 R262, R270). One that is not due does nothing. With no account in use, no
task, no set and no codec core it changes nothing but the tick. Completion is stated for TICK_BOUNDARY. -/
def Obligations.TicksRenewAccounts : Prop :=
  (∀ (x : Currency) (g rq : Nat),
      (x.renew g rq).spent = 0 ∧ (x.renew g rq).g = g ∧
      (x.renew g rq).reserve = max (-(g : Int)) (min ((x.g : Int) + x.reserve - x.spent) ((g * min rq 4 / 16 : Nat) : Int)) ∧
      (x.renew g rq).left = g + (x.renew g rq).reserve ∧
      (x.renew g rq).left ≤ g + g / 4 ∧ 0 ≤ (x.renew g rq).left) ∧
  (∀ s : State, s.tickDue = false → Completes .tickBoundary s (fun t => t = s)) ∧
  (∀ s : State, s.tickDue = true → (∀ a ∈ s.acctsInUse, a < 4096) → (∀ e ∈ s.vcc, e.1 < 64) →
      let now := s.get F.MTB_TICK_len_now
      let sel := s.get F.MTB_TICK_len_sel
      let b := if s.mtb.tickCut then s.mtime else (s.mtb.tickAt / tickLen now + 1) * tickLen now
      let grant (a : Nat) (f : RegField) := effGrant (s.get f 0 a) (s.get F.DIS_SCALE_scale) (s.flag F.DIS_ACCT_CFG_exempt 0 a)
      Completes .tickBoundary s (fun t =>
        t.mtb = { s.mtb with tickAt := b, tickCut := false } ∧
        t.get F.MTB_TICK_len_now = (if b % tickLen (max now sel) = 0 then sel else now) ∧
        (∀ a ∈ s.acctsInUse,
          (t.acct a).sc = (s.acct a).sc.renew (grant a F.DIS_ACCT_GRANT0_sc) (s.get F.DIS_ACCT_CFG_rq 0 a) ∧
          (t.acct a).cc = (s.acct a).cc.renew (grant a F.DIS_ACCT_GRANT0_cc) (s.get F.DIS_ACCT_CFG_rq 0 a) ∧
          (t.acct a).gr = (s.acct a).gr.renew (grant a F.DIS_ACCT_GRANT1_gr) (s.get F.DIS_ACCT_CFG_rq 0 a) ∧
          (t.acct a).dram = (s.acct a).dram.renew (grant a F.DIS_ACCT_GRANT1_dram) (s.get F.DIS_ACCT_CFG_rq 0 a) ∧
          (t.acct a).metered = s.flag F.DIS_ACCT_CFG_metered 0 a ∧ (t.acct a).exempt = s.flag F.DIS_ACCT_CFG_exempt 0 a ∧
          (t.acct a).prio = s.get F.DIS_ACCT_CFG_prio 0 a ∧ (t.acct a).exhausted = (t.acct a).isOut) ∧
        (∀ a, a ∉ s.acctsInUse → t.acct a = s.acct a) ∧
        t.dis.sets = s.dis.sets.filter (fun r => !atOrAfter b r.trigger) ∧ t.dis.heard = s.dis.heard ∧ t.dis.ended = s.dis.ended ∧
        (s.acctsInUse = [] → s.dis.tasks = [] → s.dis.sets = [] → s.vcc = [] →
          regsKept s t [.MTB_TICK] ∧ t = { s with regs := t.regs, mtb := t.mtb, sys := { s.sys with firstEst := true } }) ∧
        regsKept s t [.MTB_TICK, .DIS_ACCT_STAT, .DIS_CNT, .DIS_STATUS, .DIS_LIST_STAT, .MEM_MAP_ERR, .VCC_STATUS] ∧
        t = { s with regs := t.regs, dram := t.dram, mtb := t.mtb, dis := t.dis, vcc := t.vcc,
                     sys := { s.sys with firstEst := true, idleAt := t.sys.idleAt } }))

/-- TREADY (10 R268): accepted only where the list is enabled and below its cap and the record's state is not 1, 2 or 3; it then holds
an entry with its effective deadline, in arrival order; otherwise nothing is stored, the refusal is counted and 0x03 is returned.
The record of an accepted task shows state 1. TCANCEL (10 R269): a ready task leaves its list with state 7 and status 0x00, a slot
task its slot with 0x05, and any other is left as it is with 0x06; where a TREADY and a TCANCEL of one record meet, the task is never inserted,
its record shows state 7, and both cores receive 0x04. Each operation of a core is answered once it is the core's oldest at the
dispatcher (01 R26). Completion is stated for TASK_READY and TASK_CANCEL. -/
def Obligations.ReadyTasksAreHeldOrCancelled : Prop :=
  (∀ (s : State) (rec : Nat), s.memOk → rec % 512 = 0 → s.tileBase rec ≠ none →
      let w0 := s.word rec
      let l := fld w0 51 46
      let st := fld (s.word (rec + 32)) 127 124
      let ok := s.flag F.DIS_LIST_CFG_en 0 l = true ∧ (s.dis.tasks.filter (fun t => t.list == l)).length < s.get F.DIS_LIST_CFG_cap 0 l ∧
        st ≠ 1 ∧ st ≠ 2 ∧ st ≠ 3
      let eff := if bit w0 33 then (s.mtime + fld w0 127 64) % 2 ^ 64 else fld w0 127 64
      (ok → Completes (.taskReady none rec) s (fun t =>
        t.dis = { s.dis with tasks := s.dis.tasks ++ [⟨rec, l, fld w0 63 52, eff, s.dis.arrivals, .ready⟩], arrivals := s.dis.arrivals + 1 } ∧
        fld (t.word (rec + 32)) 127 124 = 1 ∧ fld (t.word (rec + 48)) 127 64 = eff ∧ t.word rec = w0 ∧
        t.regs = s.regs ∧ t = { s with dram := t.dram, dis := t.dis })) ∧
      (¬ ok → Completes (.taskReady none rec) s (fun t =>
        t.dis = s.dis ∧ t.dram = s.dram ∧ t.get F.DIS_STATUS_refused_evt = 1 ∧
        t.get F.DIS_CNT_refused = min (2 ^ (F.DIS_CNT_refused.hi + 1 - F.DIS_CNT_refused.lo) - 1) (s.get F.DIS_CNT_refused + 1) ∧
        onlyRegs s t ∧ regsKept s t [.DIS_CNT, .DIS_LIST_STAT, .DIS_STATUS])) ∧
      (∀ k, (s.core k).ops.find? (fun o => o.dest == 32) = some (.tready rec) → Completes (.taskReady (some k) rec) s (fun t =>
        (t.core k).replies = (s.core k).replies ++ [(statusWord (s.tready rec s.mtime).1, none)] ∧
        (t.core k).ops = dropFirst (· == .tready rec) (s.core k).ops ∧ t.dis = (s.tready rec s.mtime).2.dis ∧
        ((s.tready rec s.mtime).1 = 0x00 ↔ ok) ∧ ((s.tready rec s.mtime).1 = 0x03 ↔ ¬ ok)))) ∧
  ((∀ (s : State) (rec : Nat) (x : Task), s.dis.tasks.find? (fun t => t.record == rec) = some x →
      (x.place = .ready → (s.tcancel rec).1 = 0x00 ∧ Completes (.taskCancel none rec false) s (fun t => t = (s.dropTask rec).recState rec 7)) ∧
      (∀ c, x.place = .slot c → (s.tcancel rec).1 = 0x05 ∧ Completes (.taskCancel none rec false) s (fun t => t = (s.dropTask rec).recState rec 7)) ∧
      (∀ c, x.place = .running c → (s.tcancel rec).1 = 0x06 ∧ Completes (.taskCancel none rec false) s (fun t => t = s))) ∧
    (∀ (s : State) (rec : Nat), s.dis.tasks.find? (fun t => t.record == rec) = none →
      (s.tcancel rec).1 = 0x06 ∧ Completes (.taskCancel none rec false) s (fun t => t = s) ∧
      ((∀ e ∈ s.cores, e.2.ops.contains (.tready rec) = false) →
        Completes (.taskCancel none rec true) s (fun t => t = s.recState rec 7 ∧ t.dis = s.dis)) ∧
      (∀ k n, k ≠ n → (s.core k).ops = [.tready rec] → (s.core n).ops = [.tcancel rec] →
        (∀ e ∈ s.cores, e.1 ≠ k → e.2.ops.contains (.tready rec) = false) →
        Completes (.taskCancel (some n) rec true) s (fun t =>
          (t.core k).replies = (s.core k).replies ++ [(statusWord 0x04, none)] ∧ (t.core k).ops = [] ∧
          (t.core n).replies = (s.core n).replies ++ [(statusWord 0x04, none)] ∧ (t.core n).ops = [] ∧
          t = { s.recState rec 7 with cores := t.cores }))) ∧
    (∀ (s : State) (rec n : Nat), (s.core n).ops.find? (fun o => o.dest == 32) = some (.tcancel rec) →
      Completes (.taskCancel (some n) rec false) s (fun t =>
        (t.core n).replies = (s.core n).replies ++ [(statusWord (s.tcancel rec).1, none)] ∧
        (t.core n).ops = dropFirst (· == .tcancel rec) (s.core n).ops ∧ t.dis = (s.tcancel rec).2.dis)) ∧
    (∀ (s : State) (rec : Nat), (s.dropTask rec).dis.tasks = s.dis.tasks.filter (fun t => t.record != rec)))

/-- The dispatcher places the best ready task: least effective deadline, then higher priority, then earlier arrival; first to the
lowest idle core, then to the lowest empty slot behind a running task, then in the place of the slot task that stands last among those it
precedes, which is displaced (10 R266, R267). A task starts on a core of a station in service that runs none: the slot's task runs, its record
shows state 3 with the logical station and core, a task without a saved context starts at its entry with its argument in g1 and its record's address
in g2, and one with a saved context where that context says (10 R265, R267; 09 R253); with its slot empty the core takes what the
dispatcher then places there. A task that ended leaves its list, and its record shows state 4 with its value, or 5 with the trap (10
R265). Completion is stated for SLOT_FILL, TASK_START and TASK_END. -/
def Obligations.TasksAreDispatchedRunAndEnded : Prop :=
  ((∀ (s : State) (x : Task) (c : Nat), s.flag F.DIS_CTRL_en = true → s.candidates.head? = some x → s.coresFor x ≠ [] →
      (s.coresFor x).find? (fun c => (s.runningOn c).isNone && (s.slotOf c).isNone) = some c →
      Completes .slotFill s (fun t => t = (s.setPlace x.record (.slot c)).recState x.record 2)) ∧
    (∀ (s : State) (x : Task), s.flag F.DIS_CTRL_en = true → s.candidates.head? = some x →
      (s.coresFor x).find? (fun c => (s.runningOn c).isNone && (s.slotOf c).isNone) = none →
      (∀ c, (s.coresFor x).find? (fun c => (s.slotOf c).isNone) = some c →
        Completes .slotFill s (fun t => t = (s.setPlace x.record (.slot c)).recState x.record 2)) ∧
      ((s.coresFor x).find? (fun c => (s.slotOf c).isNone) = none → ∀ (u : Task) (c : Nat), s.coresFor x = [c] → s.slotOf c = some u →
        s.precedes x u = true →
        Completes .slotFill s (fun t => t = ((s.displace u).setPlace x.record (.slot c)).recState x.record 2))) ∧
    (∀ (s : State) (a b : Task), s.dis.tasks = [a, b] → a.place = .ready → b.place = .ready →
      s.flag F.DIS_LIST_CFG_en 0 a.list = true → s.flag F.DIS_LIST_CFG_en 0 b.list = true →
      (s.acct a.account).exhausted = false → (s.acct b.account).exhausted = false →
      (a.deadline < b.deadline → s.candidates = [a, b]) ∧ (b.deadline < a.deadline → s.candidates = [b, a]) ∧
      (a.deadline = b.deadline → (s.acct a.account).prio > (s.acct b.account).prio → s.candidates = [a, b]) ∧
      (a.deadline = b.deadline → (s.acct a.account).prio < (s.acct b.account).prio → s.candidates = [b, a]) ∧
      (a.deadline = b.deadline → (s.acct a.account).prio = (s.acct b.account).prio → a.arrival < b.arrival → s.candidates = [a, b])) ∧
    (∀ s : State, s.flag F.DIS_CTRL_en = false → Completes .slotFill s (fun t => t = s))) ∧
  ((∀ (s : State) (n lc : Nat) (x : Task), s.memOk → s.logicalCore n = some lc → s.runningOn lc = none → s.slotOf lc = some x →
      s.get F.DIS_STN_STATE_state 0 (lc / 4) = 0 → x.record % 512 = 0 → s.tileBase x.record ≠ none →
      bit (s.word (x.record + 32)) 123 = false →
      Completes (.taskStart n) s (fun t =>
        (t.core n).task = some x.record ∧ (t.core n).started = true ∧ (t.core n).pc = fld (s.word x.record) 45 34 ∧
        (t.core n).gr 1 = BitVec.ofNat 64 (fld (s.word (x.record + 16)) 127 64) ∧ (t.core n).gr 2 = BitVec.ofNat 64 x.record ∧
        fld (t.word (x.record + 32)) 127 124 = 3 ∧ fld (t.word (x.record + 32)) 122 116 = lc / 4 % 128 ∧
        fld (t.word (x.record + 32)) 115 114 = lc % 4 ∧ t.dis.tasks = (s.setPlace x.record (.running lc)).dis.tasks ∧
        t = { s with dram := t.dram, dis := { s.dis with tasks := t.dis.tasks }, cores := t.cores, sys := t.sys })) ∧
    (∀ (s : State) (n lc : Nat) (x : Task), s.memOk → s.logicalCore n = some lc → s.runningOn lc = none → s.slotOf lc = some x →
      s.get F.DIS_STN_STATE_state 0 (lc / 4) = 0 → x.record % 512 = 0 → s.tileBase x.record ≠ none →
      bit (s.word (x.record + 32)) 123 = true →
      Completes (.taskStart n) s (fun t =>
        (t.core n).task = some x.record ∧ (t.core n).started = true ∧
        (t.core n).pc = numAt (s.rd (x.record + 512) 2048) 0 8 % 4096 ∧
        (∀ i, i < 32 → i ≠ 0 → (t.core n).gr i = BitVec.ofNat 64 (numAt (s.rd (x.record + 512) 2048) (8 * i) 8)))) ∧
    (∀ (s : State) (n lc : Nat), s.logicalCore n = some lc → s.slotOf lc = none →
      (s.runningOn lc ≠ none ∨ s.get F.DIS_STN_STATE_state 0 (lc / 4) ≠ 0 → Completes (.taskStart n) s (fun t => t = s)) ∧
      (s.runningOn lc = none → s.get F.DIS_STN_STATE_state 0 (lc / 4) = 0 → s.fillSlot.slotOf lc = none →
        Completes (.taskStart n) s (fun t => t = s.fillSlot))) ∧
    (∀ (s : State) (e : TaskEnd), s.memOk → s.dis.ended.find? (fun x => x.core == e.core) = some e → e.record % 512 = 0 →
      s.tileBase e.record ≠ none → fld (s.word e.record) 31 12 = noQueue → e.result ≤ 1 → e.value < 2 ^ 32 → e.trap < 2 ^ 8 →
      Completes (.taskEnd e.core) s (fun t =>
        t.dis.tasks = s.dis.tasks.filter (fun x => x.record != e.record) ∧
        (e.result = 0 → fld (t.word (e.record + 32)) 127 124 = 4 ∧ fld (t.word (e.record + 32)) 63 32 = e.value) ∧
        (e.result = 1 → fld (t.word (e.record + 32)) 127 124 = 5 ∧ fld (t.word (e.record + 32)) 113 106 = e.trap ∧
          t.get F.DIS_STATUS_fault_evt = 1) ∧
        t.dis.ended = dropFirst (· == e) s.dis.ended ∧ t.word e.record = s.word e.record ∧ regsKept s t [.DIS_CNT, .DIS_STATUS] ∧
        t = { s with regs := t.regs, dram := t.dram, dis := { s.dis with tasks := t.dis.tasks, ended := t.dis.ended }, sys := t.sys })))

/-- Drain, halt and resume of a station, by DIS_UNIT_CMD (10 R271): a drain of a station in service shows state 1, and its slot tasks are
ready again; a halt state 3, its slot tasks are ready again, each task that ran on it and has not ended is void and leaves its list, and
its cores run nothing; a resume of a draining, drained or halted one shows state 0; a draining station whose tasks have ended is drained,
state 2; a halted physical station is remembered for 01 R31 and forgotten at a resume. Each command is reported with result 1. A drain of
a station that is draining, drained or halted, a halt of a halted one and a resume of one in service change nothing else. A write of
DIS_LIST_CFG is refused, with the list's refused bit, when the caps of the enabled lists would sum to more than 65,536, and is otherwise
taken (10 R274). Completion is stated for DRAIN, HALT, RESUME, UNIT_DRAINED (of a station) and LIST_CONFIG_WRITE. -/
def Obligations.StationsDrainHaltResume : Prop :=
  ((∀ (s : State) (m : Master) (ticket n : Nat), n < 128 → ticket < 256 → s.admits m →
      let st := s.get F.DIS_STN_STATE_state 0 n
      let reported (t : State) : Prop := t.get F.DIS_UNIT_STAT_result = 1 ∧ t.get F.DIS_UNIT_STAT_ticket = ticket
      let noSlot (t : State) : Prop := ∀ x ∈ t.dis.tasks, ∀ c, x.place = .slot c → c / 4 ≠ n
      (st = 0 ∨ st = 4 → Completes (.drain m ticket .station n) s (fun t =>
        reported t ∧ t.get F.DIS_STN_STATE_state 0 n = 1 ∧ noSlot t ∧
        t.dis.tasks.map (fun x => { x with place := .ready }) = s.dis.tasks.map (fun x => { x with place := .ready }) ∧
        (noSlot s → t.dis.tasks = s.dis.tasks ∧ onlyRegs s t ∧ regsKept s t [.DIS_STN_STATE, .DIS_UNIT_STAT]) ∧
        regsKept s t [.DIS_STN_STATE, .DIS_UNIT_STAT, .DIS_CNT, .MEM_MAP_ERR] ∧
        t = { s with regs := t.regs, dram := t.dram, bus := ⟨0, 0⟩, dis := { s.dis with tasks := t.dis.tasks },
                     sys := { s.sys with idleAt := t.sys.idleAt } })) ∧
      (st ≠ 0 → st ≠ 4 → Completes (.drain m ticket .station n) s (fun t =>
        reported t ∧ t = { s with regs := t.regs, bus := ⟨0, 0⟩ } ∧ regsKept s t [.DIS_UNIT_STAT])) ∧
      (st ≠ 3 → (s.dis.tasks.map (·.record)).Nodup → Completes (.halt m ticket .station n []) s (fun t =>
        reported t ∧ t.get F.DIS_STN_STATE_state 0 n = 3 ∧ s.physOf n ∈ t.sys.stnHalted ∧ noSlot t ∧
        (∀ k x, k < 4 → s.runningOn (4 * n + k) = some x → (∀ e ∈ s.dis.ended, e.record ≠ x.record) →
          ∀ y ∈ t.dis.tasks, y.record ≠ x.record) ∧
        (∀ x ∈ s.dis.tasks, (∀ c, x.place = .slot c ∨ x.place = .running c → c / 4 ≠ n) → x ∈ t.dis.tasks) ∧
        (∀ k, k < 4 → (t.core (4 * s.physOf n + k)).task = none ∧ (t.core (4 * s.physOf n + k)).started = false) ∧
        t.dis.accts = s.dis.accts ∧ t.mtb = s.mtb ∧ t.fwd = s.fwd ∧ t.vcc = s.vcc ∧ t.sec = s.sec)) ∧
      (st = 3 → Completes (.halt m ticket .station n []) s (fun t =>
        reported t ∧ t = { s with regs := t.regs, bus := ⟨0, 0⟩ } ∧ regsKept s t [.DIS_UNIT_STAT])) ∧
      (st = 1 ∨ st = 2 ∨ st = 3 → Completes (.resume m ticket .station n) s (fun t =>
        reported t ∧ t.get F.DIS_STN_STATE_state 0 n = 0 ∧ s.physOf n ∉ t.sys.stnHalted ∧
        regsKept s t [.DIS_STN_STATE, .DIS_UNIT_STAT] ∧ t = { s with regs := t.regs, bus := ⟨0, 0⟩, sys := t.sys })) ∧
      (st = 0 ∨ st = 4 → Completes (.resume m ticket .station n) s (fun t =>
        reported t ∧ t = { s with regs := t.regs, bus := ⟨0, 0⟩ } ∧ regsKept s t [.DIS_UNIT_STAT]))) ∧
    (∀ (s : State) (n : Nat), n < 128 → s.get F.DIS_STN_STATE_state 0 n = 1 →
      ((∀ k, k < 4 → s.runningOn (4 * n + k) = none) →
        Completes (.unitDrained .station n) s (fun t => t = s.put F.DIS_STN_STATE_state 2 0 n ∧ t.get F.DIS_STN_STATE_state 0 n = 2)) ∧
      (∀ k, k < 4 → s.runningOn (4 * n + k) ≠ none → Completes (.unitDrained .station n) s (fun t => t = s)))) ∧
  (∀ (s : State) (m : Master) (l : Nat) (v : Reg64), l < 64 → s.admits m →
      let caps (t : State) : Nat := (List.range 64).foldl (fun n i => n + (if t.flag F.DIS_LIST_CFG_en 0 i then t.get F.DIS_LIST_CFG_cap 0 i else 0)) 0
      let new := s.setReg .DIS_LIST_CFG (codedWrite RegName.DIS_LIST_CFG.info (s.reg .DIS_LIST_CFG 0 l) v) 0 l
      (caps new ≤ 65536 → Completes (.listConfigWrite m l v) s (fun t =>
        t.reg .DIS_LIST_CFG 0 l = new.reg .DIS_LIST_CFG 0 l ∧ t.get F.DIS_LIST_STAT_refused 0 l = 0 ∧ caps t = caps new ∧
        onlyRegs s t ∧ regsKept s t [.DIS_LIST_CFG, .DIS_LIST_STAT])) ∧
      (65536 < caps new → Completes (.listConfigWrite m l v) s (fun t =>
        t.reg .DIS_LIST_CFG 0 l = s.reg .DIS_LIST_CFG 0 l ∧ t.get F.DIS_LIST_STAT_refused 0 l = 1 ∧ caps t = caps s ∧
        onlyRegs s t ∧ regsKept s t [.DIS_LIST_STAT])))

/-- A producer's words become one item, and only whole (11 R278, R279): a word without last joins the producer's partial item, the
last word makes the item wait for its commit, and an item longer than slot_words is discarded and counted in bad. Other producers'
partial items, the committed items and the indices stay. A first word with no entry free, or one behind a waiting word of its producer,
waits; a producer that drops its words drops it and counts it (11 R279, R286); a word for a closed queue is counted in bad_op alone (11
R290). A commit appends the oldest waiting item; on a full queue it first discards the oldest item, which counts in lost, and rd moves
past it when it pointed there (11 R279, R282). Here for a queue that spills nowhere and that no interrupt watches. A flush of an F-class
queue empties it at once: rd and rel at wr, no committed, whole or partial item left, read buffers kept, and the producers of discarded
partial items drop their words up to their next last word; of any other queue it is counted in bad_op (11 R286). Operations on one queue
that meet in one cycle act in the order flush, words, release, pop, commit whatever order they were sent in (11 R287): here a commit sent
before the pop of its cycle acts after it. Completion is stated for QPUSH, ITEM_COMMIT and QFLUSH. -/
def Obligations.ItemsAreCommittedWhole : Prop :=
  (∀ (s : State) (p : Agent) (q : Nat) (w : Word) (last : Bool), q < noQueue → s.alone q (.qpush p q w last) →
      s.mayArrive p (.push q w last) = true →
      let gone (t : State) : Prop := ∀ n, p = .core n → (t.core n).ops = dropFirst (· == .push q w last) (s.core n).ops
      (s.canTake p q = false ∨ (s.qnode (homeNode q)).waiting.any (fun e => e.1 == p) = true → Completes (.qpush p q w last) s (fun t =>
        (t.qnode (homeNode q)).waiting = (s.qnode (homeNode q)).waiting ++ [(p, q, w, last, none)] ∧ gone t ∧
        t = { s with cores := t.cores, mem := { s.mem with qnodes := t.mem.qnodes } })) ∧
      (s.queues.get? q = none → (s.qnode (homeNode q)).waiting = [] → Completes (.qpush p q w last) s (fun t =>
        gone t ∧ t.get F.MEM_Q_CNT_bad_op (homeNode q) = min 0xFFFF (s.get F.MEM_Q_CNT_bad_op (homeNode q) + 1) ∧
        regsKept s t [.MEM_Q_CNT] ∧ t = { s with regs := t.regs, cores := t.cores })) ∧
      (∀ a, s.queues.get? q = some a → (s.qnode (homeNode q)).waiting = [] → a.dropping.contains p = true →
        Completes (.qpush p q w last) s (fun t => gone t ∧
          t.queues.get? q = some { a with flushDrop := min 0xFFFF (a.flushDrop + 1),
                                          dropping := if last then a.dropping.filter (· != p) else a.dropping } ∧
          (∀ k, k ≠ q → t.queues.get? k = s.queues.get? k) ∧ regsKept s t [.MEM_Q_CNT] ∧
          t = { s with regs := t.regs, queues := t.queues, cores := t.cores })) ∧
      (∀ a, s.queues.get? q = some a → (s.qnode (homeNode q)).waiting = [] → a.dropping.contains p = false →
        ((byAgent a.partials p).isSome = true ∨ s.partialCount (homeNode q) < 256) →
        let ws := (byAgent a.partials p).getD [] ++ [w]
        Completes (.qpush p q w last) s (fun t => gone t ∧
          (∃ b : Queue, t.queues.get? q = some b ∧ b.items = a.items ∧ b.wr = a.wr ∧ b.rd = a.rd ∧ b.rel = a.rel ∧ b.lost = a.lost ∧
            (∀ r, r ≠ p → byAgent b.partials r = byAgent a.partials r) ∧
            (last = false → byAgent b.partials p = some ws ∧ b.ready = a.ready ∧ t.regs = s.regs) ∧
            (last = true → byAgent b.partials p = none) ∧
            (last = true → ws.length ≤ a.slotWords → b.ready = a.ready ++ [⟨p, ws, none⟩] ∧ t.regs = s.regs) ∧
            (last = true → a.slotWords < ws.length → b.ready = a.ready ∧ b.bad = min 0xFFFF (a.bad + 1))) ∧
          (∀ k, k ≠ q → t.queues.get? k = s.queues.get? k) ∧ regsKept s t [.MEM_Q_CNT] ∧
          t = { s with regs := t.regs, queues := t.queues, cores := t.cores }))) ∧
  (∀ (s : State) (q : Nat) (a : Queue) (r : QReady) (rest : List QReady), q < noQueue → s.queues.get? q = some a → a.wf → a.ready = r :: rest →
      r.keep = none → a.spill = noQueue → s.written .INC_QWATCH = [] → s.alone q (.itemCommit q) →
      Completes (.itemCommit q) s (fun t =>
        (∃ b : Queue, t.queues.get? q = some b ∧ b.ready = rest ∧ b.wr = (a.wr + 1) % 2 ^ 17 ∧ b.pushed = (a.pushed + 1) % 2 ^ 32 ∧
          (a.occ < 2 ^ a.log2cap → b.items = a.items ++ [r.words] ∧ b.rd = a.rd ∧ b.rel = a.rel ∧ b.lost = a.lost ∧ t.regs = s.regs) ∧
          (a.occ = 2 ^ a.log2cap → b.items = a.items.drop 1 ++ [r.words] ∧ b.rel = (a.rel + 1) % 2 ^ 17 ∧
            b.rd = (if a.rd = a.rel then (a.rd + 1) % 2 ^ 17 else a.rd) ∧ b.lost = (a.lost + 1) % 2 ^ 32 ∧
            t.get F.MEM_Q_CNT_lost (homeNode q) = min 0xFFFF (s.get F.MEM_Q_CNT_lost (homeNode q) + 1))) ∧
        (∀ k, k ≠ q → t.queues.get? k = s.queues.get? k) ∧ regsKept s t [.MEM_Q_CNT] ∧ t = { s with regs := t.regs, queues := t.queues })) ∧
  (∀ (s : State) (p : Agent) (q : Nat) (a : Queue), q < noQueue → s.queues.get? q = some a → s.mayArrive p (.flush q) = true →
      s.alone q (.qflush p q) →
      let replied (t : State) (v : Reg64) : Prop := ∀ n, p = .core n → (t.core n).replies = (s.core n).replies ++ [(v, none)] ∧
        (t.core n).ops = dropFirst (· == .flush q) (s.core n).ops
      (a.cls = 1 → (s.qnode (homeNode q)).waiting = [] → Completes (.qflush p q) s (fun t => replied t (statusWord 0x00) ∧
        (∃ b : Queue, t.queues.get? q = some b ∧ b.rd = a.wr ∧ b.rel = a.wr ∧ b.wr = a.wr ∧ b.items = [] ∧
          b.ready = [] ∧ b.partials = [] ∧ b.readBufs = a.readBufs ∧ b.dropping = a.dropping ++ a.partials.map (·.1) ∧ b.lost = a.lost) ∧
        (∀ k, k ≠ q → t.queues.get? k = s.queues.get? k) ∧ t = { s with queues := t.queues, cores := t.cores })) ∧
      (a.cls ≠ 1 → Completes (.qflush p q) s (fun t => replied t (statusWord 0x07) ∧ t = { s.badOp q with cores := t.cores }))) ∧
  (∀ (s : State) (p : Agent) (q : Nat), s.deferredOn q = [] → s.pending = [.qpop p q] →
      Completes (.itemCommit q) s (fun t => t = { s with mem := { s.mem with deferred := s.mem.deferred ++ [.itemCommit q] } })) ∧
  (∀ (s : State) (p : Agent) (q : Nat), s.mem.deferred = [.itemCommit q] → s.pending = [] →
      Completes (.qpop p q) s (fun t => t = (({ s with mem := { s.mem with deferred := [] } } : State).popArrives p q).commit q))

/-- A pop (11 R280, R281): of an empty queue it returns the idle word with status 0x01 and the last bit and changes nothing; the first
word of an item moves the whole item out, freeing it for an F-class queue and reading past it for an H-class one; later words come
from the read buffer, the last with bit 8. Marks, rewind and release of an H-class queue (11 R283, R284, R285): QMARK sets its
mark to rd; QREWIND moves rd to a mark that is not stale, or to rel with status 0x02 and the items skipped; QRELEASE frees up to a
mark or up to rd, and a stale mark releases nothing; on an F-class queue each returns 0x07 and is counted in bad_op alone, as a pop of
a closed queue is (11 R290). The status word of each is on its way to the core that sent it. Completion is stated for QPOP, QMARK,
QREWIND and QRELEASE. -/
def Obligations.QueuesArePoppedAndRewound : Prop :=
  (∀ (s : State) (p : Agent) (q : Nat), q < noQueue → s.popBlocked p q = false → s.alone q (.qpop p q) → s.mayArrive p (.pop q) = true →
      let replied (t : State) (v : Reg64) (w : Word) : Prop := ∀ n, p = .core n → (t.core n).replies = (s.core n).replies ++ [(v, some w)] ∧
        (t.core n).ops = dropFirst (· == .pop q) (s.core n).ops
      (s.queues.get? q = none → Completes (.qpop p q) s (fun t =>
        replied t (statusWord 0x07) 0 ∧ t = { s.badOp q with cores := t.cores })) ∧
      (∀ a, s.queues.get? q = some a → byAgent a.readBufs p = none → a.unread = 0 → Completes (.qpop p q) s (fun t =>
        replied t (statusWord 0x01 true) a.idle ∧ t = { s with cores := t.cores })) ∧
      (∀ a w rest, s.queues.get? q = some a → byAgent a.readBufs p = none → a.unread ≠ 0 → a.head = some (w :: rest) →
        Completes (.qpop p q) s (fun t => replied t (statusWord 0x00 rest.isEmpty) w ∧
          (∃ b : Queue, t = { s with queues := s.queues.put q b, cores := t.cores } ∧ b.rd = (a.rd + 1) % 2 ^ 17 ∧
            b.popped = (a.popped + 1) % 2 ^ 32 ∧ b.wr = a.wr ∧
            (a.cls = 1 → b.rel = (a.rel + 1) % 2 ^ 17 ∧ b.items = a.items.drop 1) ∧ (a.cls ≠ 1 → b.rel = a.rel ∧ b.items = a.items) ∧
            byAgent b.readBufs p = (if rest.isEmpty then none else some rest)))) ∧
      (∀ a w rest, s.queues.get? q = some a → byAgent a.readBufs p = some (w :: rest) →
        Completes (.qpop p q) s (fun t => replied t (statusWord 0x00 rest.isEmpty) w ∧
          (∃ b : Queue, t = { s with queues := s.queues.put q b, cores := t.cores } ∧ b.items = a.items ∧ b.rd = a.rd ∧ b.rel = a.rel ∧
            b.popped = a.popped ∧ byAgent b.readBufs p = (if rest.isEmpty then none else some rest))))) ∧
  (∀ (s : State) (p : Agent) (q k : Nat) (a : Queue), q < noQueue → s.queues.get? q = some a → k < 4 →
      s.alone q (.qmark p q k) → s.alone q (.qrewind p q k) → s.alone q (.qrelease p q k) → s.alone q (.qrelease p q 4) →
      let replied (t : State) (op : NetOp) (v : Reg64) : Prop := ∀ n, p = .core n → (t.core n).replies = (s.core n).replies ++ [(v, none)] ∧
        (t.core n).ops = dropFirst (· == op) (s.core n).ops
      (a.cls = 2 → a.marks.length = 4 →
        (s.mayArrive p (.mark q k) = true → Completes (.qmark p q k) s (fun t => replied t (.mark q k) (statusWord 0x00) ∧
          ∃ b : Queue, t = { s with queues := s.queues.put q b, cores := t.cores } ∧
            b.mark k = ⟨false, a.rd⟩ ∧ (∀ j, j < 4 → j ≠ k → b.mark j = a.mark j) ∧ b.rd = a.rd ∧ b.rel = a.rel ∧ b.items = a.items)) ∧
        (s.mayArrive p (.rewind q k) = true → (a.mark k).stale = false → Completes (.qrewind p q k) s (fun t =>
          replied t (.rewind q k) (statusWord 0x00) ∧ t = { s with queues := s.queues.put q { a with rd := (a.mark k).pos }, cores := t.cores })) ∧
        (s.mayArrive p (.rewind q k) = true → (a.mark k).stale = true → Completes (.qrewind p q k) s (fun t =>
          replied t (.rewind q k) (statusWord 0x02 false ((a.rel + 2 ^ 17 - (a.mark k).pos) % 2 ^ 17)) ∧
          t = { s with queues := s.queues.put q { a with rd := a.rel }, cores := t.cores })) ∧
        (s.mayArrive p (.release q k) = true → (a.mark k).stale = true → Completes (.qrelease p q k) s (fun t =>
          replied t (.release q k) (statusWord 0x02 false ((a.rel + 2 ^ 17 - (a.mark k).pos) % 2 ^ 17)) ∧
          t = { s with queues := s.queues.put q a, cores := t.cores })) ∧
        (s.mayArrive p (.release q k) = true → (a.mark k).stale = false → a.wf → Completes (.qrelease p q k) s (fun t =>
          replied t (.release q k) (statusWord 0x00) ∧ ∃ b : Queue,
            t = { s with queues := s.queues.put q b, cores := t.cores } ∧ b.rel = (a.mark k).pos ∧ b.wr = a.wr ∧ b.lost = a.lost ∧ b.wf ∧
            b.items = a.items.drop (((a.mark k).pos + 2 ^ 17 - a.rel) % 2 ^ 17))) ∧
        (s.mayArrive p (.release q 4) = true → a.wf → Completes (.qrelease p q 4) s (fun t =>
          replied t (.release q 4) (statusWord 0x00) ∧ ∃ b : Queue,
            t = { s with queues := s.queues.put q b, cores := t.cores } ∧ b.rel = a.rd ∧ b.rd = a.rd ∧ b.wr = a.wr ∧
            b.items = a.items.drop a.readNo))) ∧
      (a.cls = 1 →
        (s.mayArrive p (.mark q k) = true → Completes (.qmark p q k) s (fun t =>
          replied t (.mark q k) (statusWord 0x07) ∧ t = { s.badOp q with cores := t.cores })) ∧
        (s.mayArrive p (.rewind q k) = true → Completes (.qrewind p q k) s (fun t =>
          replied t (.rewind q k) (statusWord 0x07) ∧ t = { s.badOp q with cores := t.cores })) ∧
        (s.mayArrive p (.release q k) = true → Completes (.qrelease p q k) s (fun t =>
          replied t (.release q k) (statusWord 0x07) ∧ t = { s.badOp q with cores := t.cores }))))

/-- Every operation of a queue keeps its form (11 R276, R283): an open makes a queue that has it, and discarding, taking, marking,
rewinding, releasing and flushing keep it. -/
def Obligations.QueueOperationsKeepForm : Prop :=
  (∀ w0 idle : Word, descLegal w0 = true → (openedQueue w0 idle).wf) ∧
  (∀ a : Queue, a.wf →
    (a.occ ≠ 0 → a.discard.wf) ∧ (a.unread ≠ 0 → a.take.wf) ∧ (∀ k, (a.doMark k).2.wf) ∧
    (a.cls ≠ 1 → ∀ k, (a.doRewind k).2.wf) ∧ (a.cls ≠ 1 → ∀ f, (a.doRelease f).2.wf) ∧ (a.occ ≠ 0 → a.releaseOldest.wf) ∧
    (a.cls = 1 → a.flushed.wf))

/-- The queue commands of a memory node (11 R277): an open of a closed queue of the node with a legal descriptor leaves it empty, a
close removes it, a flush empties it, a sync leaves it; each is reported with its ticket and result, and an open of an open queue or
with a descriptor that is none, or a close, sync or flush of a closed one, is refused with result 3. Here while no other command of the
node waits; for a close, while only words for that queue wait at the node, and for a flush while none does. Completion is stated for OPEN,
CLOSE, QUEUE_SYNC and FLUSH. -/
def Obligations.QueueCommandsOpenAndClose : Prop :=
  ∀ (s : State) (m : Master) (n ticket q : Nat), n < 32 → ticket < 256 → q < noQueue → homeNode q = n → s.admits m → (s.qnode n).cmds = [] →
    let reported (t : State) (r : Nat) : Prop := t.get F.MEM_Q_STAT_ticket n = ticket ∧ t.get F.MEM_Q_STAT_result n = r ∧
      regsKept s t [.MEM_Q_STAT, .MEM_MAP_ERR] ∧
      t = { s with regs := t.regs, dram := t.dram, queues := t.queues, mem := { s.mem with qnodes := t.mem.qnodes }, bus := ⟨0, 0⟩ }
    let refused (t : State) : Prop := reported t 3 ∧ t.queues = s.queues ∧ t.dram = s.dram
    (s.queues.get? q = none → descLegal (s.word (s.descAddr n q)) = true →
      Completes (.openQueue m n ticket q) s (fun t => reported t 1 ∧
        t.queues.get? q = some (openedQueue (s.word (s.descAddr n q)) (s.word (s.descAddr n q + 16))) ∧
        (∀ k, k ≠ q → t.queues.get? k = s.queues.get? k))) ∧
    (s.queues.get? q = none → descLegal (s.word (s.descAddr n q)) = false → Completes (.openQueue m n ticket q) s refused) ∧
    ((s.queues.get? q).isSome = true → Completes (.openQueue m n ticket q) s refused) ∧
    ((s.queues.get? q).isSome = true → (∀ e ∈ (s.qnode n).waiting, e.2.1 = q) → Completes (.close m n ticket q) s (fun t =>
        reported t 1 ∧ t.queues = s.queues.del q ∧ (t.qnode n).waiting = [])) ∧
    ((s.queues.get? q).isSome = true → Completes (.queueSync m n ticket q) s (fun t => reported t 1 ∧ t.queues = s.queues)) ∧
    (∀ a, s.queues.get? q = some a → a.cls = 1 → (s.qnode n).waiting = [] → Completes (.flush m n ticket q) s (fun t =>
        reported t 1 ∧ t.queues.get? q = some a.flushed ∧ (∀ k, k ≠ q → t.queues.get? k = s.queues.get? k) ∧ t.dram = s.dram)) ∧
    (∀ a, s.queues.get? q = some a → a.cls ≠ 1 → Completes (.flush m n ticket q) s refused) ∧
    (s.queues.get? q = none → Completes (.close m n ticket q) s refused ∧ Completes (.queueSync m n ticket q) s refused ∧
      Completes (.flush m n ticket q) s refused)

/-- The address map never gives two tiles one place (13 R316): two byte addresses of different tiles that are both backed lie in
different channels or at different channel-local tiles, and no address lies in the checksum store (13 R315). Proved of the bands
as any state holds them, with channel masks of 256 bits. -/
def Obligations.AddressMapIsInjective : Prop :=
  ∀ (s : State) (p q ch u : Nat), s.tilePlace p = some (ch, u) → s.tilePlace q = some (ch, u) →
    (p / 512 = q / 512 ∧ u < 3121152)

/-- Bytes written within a backed tile are what is read there afterwards, and every byte of every other tile reads as before (13 R316,
R317). An unbacked address reads zeros, drops writes, counts each access and fails a verified read (13 R317). -/
def Obligations.TilesReadBackOrZero : Prop :=
  (∀ (s : State) (pa : Nat) (bs : List Byte), s.memOk → s.tileBase pa ≠ none → pa % 512 + bs.length ≤ 512 →
      (s.wrTile pa bs).rdTile pa bs.length = bs ∧
      (∀ x n, x / 512 ≠ pa / 512 → x % 512 + n ≤ 512 → (s.wrTile pa bs).rdTile x n = s.rdTile x n) ∧
      s.wrTile pa bs = { s with dram := (s.wrTile pa bs).dram }) ∧
  (∀ (s : State) (pa n : Nat) (bs : List Byte), s.tilePlace pa = none →
      s.rdTile pa n = List.replicate n 0 ∧ s.verifies pa = false ∧
      (s.wrTile pa bs).dram = s.dram ∧ onlyRegs s (s.wrTile pa bs) ∧ regsKept s (s.wrTile pa bs) [.MEM_MAP_ERR] ∧
      (s.wrTile pa bs).get F.MEM_MAP_ERR_unbacked = min (2 ^ 32 - 1) (s.get F.MEM_MAP_ERR_unbacked + 1))

/-- A whole tile arriving at a guarded, backed address with a matching checksum is written and verifies; with a mismatch it is
written, poisoned and reported for the write path; a host write of less than a tile poisons it (13 R326, R327, R328). The writer's
account is charged 5 flits and 8 DRAM units (01 R25; 10 R258). A read of a tile that fails verification is reported to the tile's
home node; one that passes is not; neither changes memory; a report at its node counts under the reader's kind and loads
MEM_CRC_LAST, at memory node 0 as kind 6 for an unbacked address (13 R317, R329, R331). A tile that the host interface reads goes out
marked poisoned where it fails (13 R330). Completion is stated for TILE_WRITE, TILE_READ and CHECKSUM_FAILURE_REPORT. -/
def Obligations.GuardedTilesAreChecked : Prop :=
  (∀ (s : State) (w : Agent) (pa : Nat) (data : List Byte) (crc : Nat), s.memOk → w ≠ .hif → pa % 512 = 0 → data.length = 512 →
      s.guarded pa = true → s.tileBase pa ≠ none →
      (crc = crc32c data → Completes (.tileWrite w none pa data crc) s (fun t =>
        t.tile pa = data ∧ t.verifies pa = true ∧ t.mem.reports = s.mem.reports ∧
        (∀ x n, x / 512 ≠ pa / 512 → x % 512 + n ≤ 512 → t.rdTile x n = s.rdTile x n) ∧ regsKept s t [.MEM_STATUS])) ∧
      (crc ≠ crc32c data → crc < 2 ^ 32 → Completes (.tileWrite w none pa data crc) s (fun t =>
        t.tile pa = data ∧ t.verifies pa = false ∧
        t.mem.reports = s.mem.reports ++ [⟨.writePath, false, (routerOf w).1, (routerOf w).2, pa, false⟩] ∧
        (∀ x n, x / 512 ≠ pa / 512 → x % 512 + n ≤ 512 → t.rdTile x n = s.rdTile x n))) ∧
      (∀ part : List Byte, part.length < 512 → Completes (.tileWrite .hif none pa part crc) s (fun t =>
        t.verifies pa = false ∧ t.rdTile pa part.length = part ∧ t.mem.reports = s.mem.reports)) ∧
      (∀ a, Completes (.tileWrite w (some a) pa data crc) s (fun t =>
        t = (((s.charge a 2 5).charge a 3 8).arriveTile w pa data crc).noticeWrite pa 512))) ∧
  ((∀ (s : State) (k : TileReader) (gx gy pa : Nat), s.tilePlace pa ≠ none → ((gx, gy) ≠ routerOf .hif ∨ k ≠ .other) →
      (s.verifies pa = true → Completes (.tileRead k gx gy pa) s (fun t => t.mem.reports = s.mem.reports ∧ t.dram = s.dram ∧ t.out = s.out)) ∧
      (s.verifies pa = false → Completes (.tileRead k gx gy pa) s (fun t =>
        t.mem.reports = s.mem.reports ++ [⟨k, true, gx, gy, pa / 512 * 512, false⟩] ∧ t.dram = s.dram ∧ t.out = s.out))) ∧
    (∀ (s : State) (k : TileReader) (gx gy pa : Nat), s.tilePlace pa = none → ((gx, gy) ≠ routerOf .hif ∨ k ≠ .other) →
      Completes (.tileRead k gx gy pa) s (fun t => t.dram = s.dram ∧ t.out = s.out ∧
        t.mem.reports = s.mem.reports ++ [⟨k, true, gx, gy, pa / 512 * 512, true⟩] ∧ regsKept s t [.MEM_MAP_ERR] ∧
        t.get F.MEM_MAP_ERR_unbacked = min (2 ^ 32 - 1) (s.get F.MEM_MAP_ERR_unbacked + 1))) ∧
    (∀ (s : State) (pa : Nat), Completes (.tileRead .other (routerOf .hif).1 (routerOf .hif).2 pa) s (fun t =>
      t.out = s.out ++ [.hostTile (pa / 512 * 512) (s.tile pa) (!s.verifies pa)] ∧ t.dram = s.dram)) ∧
    (∀ (s : State) (r : CrcReport) (rest : List CrcReport) (ch u : Nat), s.mem.reports = r :: rest → r.unbacked = false →
      s.tilePlace r.addr = some (ch, u) → ch < 256 → r.gx < 16 → r.gy < 16 → r.addr < 2 ^ 48 →
      Completes .checksumFailureReport s (fun t => t.mem = { s.mem with reports := rest } ∧
        t.get (crcField r.kind) (ch / 8) = min 0xFFFF (s.get (crcField r.kind) (ch / 8) + 1) ∧
        t.get F.MEM_CRC_LAST_kind (ch / 8) = crcKind r.kind ∧ t.get F.MEM_CRC_LAST_addr (ch / 8) = r.addr ∧
        t.get F.MEM_CRC_LAST_gx (ch / 8) = r.gx ∧ t.get F.MEM_CRC_LAST_gy (ch / 8) = r.gy ∧ t.dram = s.dram)) ∧
    (∀ (s : State) (r : CrcReport) (rest : List CrcReport), s.mem.reports = r :: rest → r.unbacked = true →
      r.gx < 16 → r.gy < 16 → r.addr < 2 ^ 48 →
      Completes .checksumFailureReport s (fun t => t.get F.MEM_CRC_CNT1_other = min 0xFFFF (s.get F.MEM_CRC_CNT1_other + 1) ∧
        t.get F.MEM_CRC_LAST_kind = 6 ∧ t.get F.MEM_CRC_LAST_store = 1 ∧ t.dram = s.dram)))

/-- A channel's requests and rows (13 R319-R325): the oldest request of a channel that is not in self-refresh, with room in its retry
buffer, is issued and its row opens; an idle row closes; a queued neighbour refresh is counted; an alert counts and replays, and
the eighth in succession fails the channel; an idle channel enters self-refresh and a request ends it; a forced refresh is
counted. None of them changes memory. Completion is stated for DRAM_ACCESS, ROW_IDLE_CLOSE, NEIGHBOUR_REFRESH, PARITY_ALERT,
SELF_REFRESH_ENTRY, SELF_REFRESH_EXIT and PER_BANK_REFRESH. -/
def Obligations.ChannelsServeTheirRequests : Prop :=
  (∀ (s : State) (n k : Nat) (r : DramReq) (rest : List DramReq), n < 32 → k < 8 → (s.chan (8 * n + k)).reqs = r :: rest →
    s.get F.MEM_CHAN_STAT_state n k ≠ 2 → (s.chan (8 * n + k)).retry.length < 32 →
    Completes (.dramAccess n k) s (fun t => (t.chan (8 * n + k)).reqs = rest ∧
      (t.chan (8 * n + k)).rows.get? (bankOf r.tile) = some (rowOf r.tile, s.upNs) ∧ t.regs = s.regs ∧ t.dram = s.dram ∧
      t = { s with mem := t.mem, free := t.free })) ∧
  (∀ (s : State) (n k b row at_ : Nat), (s.chan (8 * n + k)).rows.get? b = some (row, at_) →
    at_ + max 1 (s.get F.MEM_TIMING_page_idle_ns n) ≤ s.upNs →
    Completes (.rowIdleClose n k b) s (fun t => (t.chan (8 * n + k)).rows = (s.chan (8 * n + k)).rows.del b ∧ t = { s with mem := t.mem })) ∧
  (∀ (s : State) (n k : Nat) (x : Nat × Nat) (rest : List (Nat × Nat)), n < 32 → (s.chan (8 * n + k)).nbr = x :: rest →
    Completes (.neighbourRefresh n k) s (fun t => (t.chan (8 * n + k)).nbr = rest ∧
      t.get F.MEM_ERR_nbr_ref n = min 0xFFFF (s.get F.MEM_ERR_nbr_ref n + 1) ∧ t = { s with regs := t.regs, mem := t.mem })) ∧
  (∀ (s : State) (n k : Nat), n < 32 → k < 8 → s.upNs ≤ (s.chan (8 * n + k)).retryAt →
    ((s.chan (8 * n + k)).fails < 7 → Completes (.parityAlert n k) s (fun t =>
      (t.chan (8 * n + k)).retry = (s.chan (8 * n + k)).retry ∧ (t.chan (8 * n + k)).replaying = true ∧
      t.get F.MEM_ERR_alerts n = min 0xFFFF (s.get F.MEM_ERR_alerts n + 1) ∧ t.get F.MEM_CHAN_STAT_state n k = s.get F.MEM_CHAN_STAT_state n k ∧
      t = { s with regs := t.regs, mem := t.mem } ∧ regsKept s t [.MEM_ERR])) ∧
    (7 ≤ (s.chan (8 * n + k)).fails → (s.chan (8 * n + k)).replaying = true → Completes (.parityAlert n k) s (fun t =>
      t.get F.MEM_CHAN_STAT_state n k = 3 ∧ (t.chan (8 * n + k)).reqs = [] ∧ t.dram = s.dram))) ∧
  (∀ (s : State) (n k : Nat), n < 32 → k < 8 → (s.chan (8 * n + k)).retryAt < s.upNs → Completes (.parityAlert n k) s (fun t =>
      (t.chan (8 * n + k)).retry = [] ∧ (t.chan (8 * n + k)).replaying = true ∧ (t.chan (8 * n + k)).fails = 0 ∧
      t.get F.MEM_ERR_alerts n = min 0xFFFF (s.get F.MEM_ERR_alerts n + 1) ∧ t = { s with regs := t.regs, mem := t.mem } ∧
      regsKept s t [.MEM_ERR])) ∧
  (∀ (s : State) (n k : Nat), n < 32 → k < 8 → s.get F.MEM_CHAN_STAT_state n k = 0 → (s.chan (8 * n + k)).reqs = [] →
    s.get F.MEM_TIMING_sr_idle_us n ≠ 0 → (s.chan (8 * n + k)).lastReq + s.get F.MEM_TIMING_sr_idle_us n * 1000 ≤ s.upNs →
    Completes (.selfRefreshEntry n k) s (fun t => t = s.put F.MEM_CHAN_STAT_state 2 n k ∧ t.get F.MEM_CHAN_STAT_state n k = 2)) ∧
  (∀ (s : State) (n k : Nat), n < 32 → k < 8 → s.get F.MEM_CHAN_STAT_state n k = 2 → (s.chan (8 * n + k)).reqs ≠ [] →
    Completes (.selfRefreshExit n k) s (fun t => t = s.put F.MEM_CHAN_STAT_state 0 n k ∧ t.get F.MEM_CHAN_STAT_state n k = 0)) ∧
  (∀ (s : State) (n k b : Nat), n < 32 → k < 8 → b < 96 → Completes (.perBankRefresh n k b true) s (fun t =>
      t.get F.MEM_ERR_forced_ref n = min 0xFFFF (s.get F.MEM_ERR_forced_ref n + 1) ∧ t = { s with regs := t.regs } ∧ regsKept s t [.MEM_ERR]) ∧
    Completes (.perBankRefresh n k b false) s (fun t => t = s))

/-- The bands (13 R318): an accepted enable latches the channels that MEM_EXCL leaves included; a change of order under en 1 is
refused with refused set; clearing en takes the order; order 3, and any enable before training ends, is refused. The end of start-
up training excludes each failed channel at state 3, trains the others, and enables every band but one of order 3 (13 R318); a
retraining is refused while a band includes the channel, otherwise the channel's state is 1 until it ends in state 0 with result 1
or state 3 with result 3 (13 R332). Completion is stated for BAND_WRITE, START_TRAINING_END, RETRAIN and RETRAIN_COMPLETE. -/
def Obligations.BandsLatchAndChannelsTrain : Prop :=
  (∀ (s : State) (m : Master) (b : Nat) (v : Reg64), b < 24 → s.admits m →
      (s.flag F.MEM_BAND_en 0 b = false → bit v 63 = true → s.mem.training = false → fld v 62 61 ≠ 3 →
        Completes (.bandWrite m b v) s (fun t => t.mem = { s.mem with bands := s.mem.bands.put b s.includedNow } ∧
          t.get F.MEM_BAND_en 0 b = 1 ∧ t.get F.MEM_BAND_order 0 b = fld v 62 61 ∧ t.get F.MEM_BAND_refused 0 b = 0 ∧
          t = { s with regs := t.regs, bus := ⟨0, 0⟩, mem := t.mem } ∧ regsKept s t [.MEM_BAND])) ∧
      (s.flag F.MEM_BAND_en 0 b = false → bit v 63 = true → (s.mem.training = true ∨ fld v 62 61 = 3) →
        Completes (.bandWrite m b v) s (fun t => t.get F.MEM_BAND_en 0 b = 0 ∧ t.get F.MEM_BAND_refused 0 b = 1 ∧
          t = { s with regs := t.regs, bus := ⟨0, 0⟩ } ∧ regsKept s t [.MEM_BAND])) ∧
      (s.flag F.MEM_BAND_en 0 b = true → bit v 63 = true → fld v 62 61 ≠ s.get F.MEM_BAND_order 0 b →
        Completes (.bandWrite m b v) s (fun t => t.get F.MEM_BAND_en 0 b = 1 ∧ t.get F.MEM_BAND_order 0 b = s.get F.MEM_BAND_order 0 b ∧
          t.get F.MEM_BAND_refused 0 b = 1 ∧ t = { s with regs := t.regs, bus := ⟨0, 0⟩ } ∧ regsKept s t [.MEM_BAND])) ∧
      (s.flag F.MEM_BAND_en 0 b = true → bit v 63 = true → fld v 62 61 = s.get F.MEM_BAND_order 0 b →
        Completes (.bandWrite m b v) s (fun t => t.get F.MEM_BAND_en 0 b = 1 ∧ t.get F.MEM_BAND_order 0 b = s.get F.MEM_BAND_order 0 b ∧
          t.get F.MEM_BAND_refused 0 b = 0 ∧ t = { s with regs := t.regs, bus := ⟨0, 0⟩ } ∧ regsKept s t [.MEM_BAND])) ∧
      (s.flag F.MEM_BAND_en 0 b = false → bit v 63 = false →
        Completes (.bandWrite m b v) s (fun t => t.get F.MEM_BAND_en 0 b = 0 ∧ t.get F.MEM_BAND_order 0 b = fld v 62 61 ∧
          t.get F.MEM_BAND_refused 0 b = 0 ∧ t = { s with regs := t.regs, bus := ⟨0, 0⟩ } ∧ regsKept s t [.MEM_BAND])) ∧
      (s.flag F.MEM_BAND_en 0 b = true → bit v 63 = false →
        Completes (.bandWrite m b v) s (fun t => t.get F.MEM_BAND_en 0 b = 0 ∧ t.get F.MEM_BAND_order 0 b = fld v 62 61 ∧
          t.get F.MEM_BAND_refused 0 b = 0 ∧ t = { s with regs := t.regs, bus := ⟨0, 0⟩ } ∧ regsKept s t [.MEM_BAND]))) ∧
  ((∀ (s : State) (failed : List Nat), s.mem.training = true → (∀ n k, n < 32 → k < 8 → s.get F.MEM_CHAN_STAT_trainings n k < 0xFFFF) →
      Completes (.startTrainingEnd failed) s (fun t =>
        t.mem.training = false ∧ t.dram = s.dram ∧
        (∀ n k, n < 32 → k < 8 → t.get F.MEM_CHAN_STAT_state n k = (if 8 * n + k ∈ failed then 3 else 0)) ∧
        (∀ b, b < 24 → t.get F.MEM_BAND_en 0 b = (if s.get F.MEM_BAND_order 0 b = 3 then s.get F.MEM_BAND_en 0 b else 1)) ∧
        (∀ b c, b < 24 → c < 256 → s.get F.MEM_BAND_order 0 b ≠ 3 → c ∈ failed → (t.mem.bands.getD b 0).testBit c = false) ∧
        regsKept s t [.MEM_CHAN_STAT, .MEM_EXCL, .MEM_BAND])) ∧
    (∀ (s : State) (m : Master) (n ticket k : Nat), n < 32 → k < 8 → ticket < 256 → s.admits m → s.chanCmds n = [] →
      (s.inUse (8 * n + k) = true → Completes (.retrain m n ticket k) s (fun t =>
        t.get F.MEM_CHAN_RES_ticket n = ticket ∧ t.get F.MEM_CHAN_RES_result n = 2 ∧ t.chanCmds n = [] ∧ t.dram = s.dram ∧
        regsKept s t [.MEM_CHAN_RES])) ∧
      (s.inUse (8 * n + k) = false → Completes (.retrain m n ticket k) s (fun t =>
        t.get F.MEM_CHAN_STAT_state n k = 1 ∧ t.chanCmds n = [⟨1, ticket, k, 0, 0, some 0⟩] ∧ regsKept s t [.MEM_CHAN_STAT]))) ∧
    (∀ (s : State) (n k ticket : Nat), n < 32 → k < 8 → ticket < 256 → s.chanCmds n = [⟨1, ticket, k, 0, 0, some 0⟩] →
      Completes (.retrainComplete n true) s (fun t => t.get F.MEM_CHAN_STAT_state n k = 0 ∧ t.get F.MEM_CHAN_RES_result n = 1 ∧
        t.get F.MEM_CHAN_RES_ticket n = ticket ∧ t.chanCmds n = [] ∧ t.dram = s.dram ∧ regsKept s t [.MEM_CHAN_STAT, .MEM_CHAN_RES]) ∧
      Completes (.retrainComplete n false) s (fun t => t.get F.MEM_CHAN_STAT_state n k = 3 ∧ t.get F.MEM_CHAN_RES_result n = 3 ∧
        t.get F.MEM_CHAN_RES_ticket n = ticket ∧ t.chanCmds n = [] ∧ t.dram = s.dram ∧ regsKept s t [.MEM_CHAN_STAT, .MEM_CHAN_RES])))

/-- A port's configuration and link (12 R291-R293, R312): an enabling write of a disabled port is taken where the table of port types,
the lanes and the frame length allow it and else leaves en 0 and sets cfg_err; a write that changes anything but en of an enabled port is
dropped with cfg_err; a disabling write that changes nothing else takes the link down; lanes lock while the reference clock is present
and the interfaces are not as in reset; its loss takes every link of the group down. Energy-efficient idle (12 R305): a port that is up,
allowed, and idle enters LPI with no event near, also none that becomes known in the same cycle; in LPI an event near, or a waiting leg
frame, wakes it, and it may send Tw_sys_tx later; the partner's LPI shows in lpi_rx; outside LPI no wake happens. The premise that a port's
lanes lie in its group holds of every port that was enabled by R312. Completion is stated for LINK_PORT_ENABLE, LINK_PORT_DISABLE, LINK_UP,
LINK_DOWN, REFCLK_PRESENT, REFCLK_LOSS, LPI_ENTER, LPI_WAKE and LPI_RECEIVED. -/
def Obligations.PortsEnableLinkAndSleep : Prop :=
  (∀ (s : State) (lg p : Nat), lg < 16 → p < 32 →
      let inGroup (q : Nat) : Prop := q + lanes (s.get F.LNK_PORT_CFG_width lg q) ≤ 32
      let new (v : Reg64) : Reg64 := codedWrite RegName.LNK_PORT_CFG.info (s.reg .LNK_PORT_CFG lg p) v
      let errOnly (t : State) : Prop := t.get F.LNK_PORT_STAT_cfg_err lg p = 1 ∧ onlyRegs s t ∧ keptBut s t [⟨.LNK_PORT_STAT, lg, p⟩]
      (∀ (m : Master) (v : Reg64), s.admits m → s.flag F.LNK_PORT_CFG_en lg p = false →
        (s.portLegal lg p (v ||| 0x8000000000000000) = true → Completes (.linkPortEnable m lg p v) s (fun t =>
          t.flag F.LNK_PORT_CFG_en lg p = true ∧ t.get F.LNK_PORT_CFG_type lg p = fld v 62 60 ∧
          t.get F.LNK_PORT_CFG_width lg p = fld v 59 58 ∧ onlyRegs s t ∧ keptBut s t [⟨.LNK_PORT_CFG, lg, p⟩])) ∧
        (s.portLegal lg p (v ||| 0x8000000000000000) = false → Completes (.linkPortEnable m lg p v) s (fun t =>
          t.flag F.LNK_PORT_CFG_en lg p = false ∧ t.get F.LNK_PORT_STAT_cfg_err lg p = 1 ∧ onlyRegs s t ∧
          keptBut s t [⟨.LNK_PORT_CFG, lg, p⟩, ⟨.LNK_PORT_STAT, lg, p⟩])) ∧
        Completes (.linkPortDisable m lg p v) s (fun t => t.reg .LNK_PORT_CFG lg p = new (v &&& 0x7FFFFFFFFFFFFFFF) ∧
          t.flag F.LNK_PORT_CFG_en lg p = false ∧ onlyRegs s t ∧ keptBut s t [⟨.LNK_PORT_CFG, lg, p⟩])) ∧
      (∀ (m : Master) (v : Reg64), s.admits m → s.flag F.LNK_PORT_CFG_en lg p = true →
        (putFld (new (v &&& 0x7FFFFFFFFFFFFFFF)) 63 63 1 = s.reg .LNK_PORT_CFG lg p → inGroup p →
          Completes (.linkPortDisable m lg p v) s (fun t =>
            t.flag F.LNK_PORT_CFG_en lg p = false ∧ t.get F.LNK_PORT_STAT_link lg p = 0 ∧ t.get F.LNK_PORT_STAT_lpi_tx lg p = 0 ∧
            t = { s with regs := t.regs, log := t.log, bus := ⟨0, 0⟩ } ∧
            regsKept s t [.LNK_PORT_CFG, .LNK_PORT_STAT, .LNK_LANE_STAT, .LOG_CNT, .LOG_STATUS])) ∧
        (putFld (new (v &&& 0x7FFFFFFFFFFFFFFF)) 63 63 1 ≠ s.reg .LNK_PORT_CFG lg p → Completes (.linkPortDisable m lg p v) s errOnly) ∧
        (putFld (new (v ||| 0x8000000000000000)) 63 63 1 ≠ s.reg .LNK_PORT_CFG lg p → Completes (.linkPortEnable m lg p v) s errOnly) ∧
        (putFld (new (v ||| 0x8000000000000000)) 63 63 1 = s.reg .LNK_PORT_CFG lg p →
          Completes (.linkPortEnable m lg p v) s (fun t => t = { s with bus := ⟨0, 0⟩ }))) ∧
      (s.flag F.LNK_PORT_CFG_en lg p = true → s.ports.refclk.getD lg false = true → s.dark = false → inGroup p →
        Completes (.linkUp lg p) s (fun t =>
          t.get F.LNK_PORT_STAT_link lg p = 1 ∧ (s.get F.LNK_PORT_STAT_link lg p = 0 → t.get F.LNK_PORT_STAT_link_evt lg p = 1) ∧
          t = { s with regs := t.regs, log := t.log } ∧ regsKept s t [.LNK_PORT_STAT, .LNK_LANE_STAT, .LOG_CNT, .LOG_STATUS])) ∧
      (s.flag F.LNK_PORT_CFG_en lg p = false ∨ s.ports.refclk.getD lg false = false ∨ s.dark = true →
        Completes (.linkUp lg p) s (fun t => t = s)) ∧
      (inGroup p → Completes (.linkDown lg p) s (fun t => t.get F.LNK_PORT_STAT_link lg p = 0 ∧ t.get F.LNK_PORT_STAT_lpi_rx lg p = 0 ∧
        t.get F.LNK_PORT_STAT_lpi_tx lg p = 0 ∧ t = { s with regs := t.regs, log := t.log } ∧
        regsKept s t [.LNK_PORT_STAT, .LNK_LANE_STAT, .LOG_CNT, .LOG_STATUS])) ∧
      Completes (.refclkPresent lg) s (fun t => t.get F.LNK_GRP_STAT_refclk_ok lg = 1 ∧ t.ports.refclk.getD lg false = true ∧
        keptBut s t [⟨.LNK_GRP_STAT, lg, 0⟩] ∧ t = { s with regs := t.regs, ports := { s.ports with refclk := s.ports.refclk.put lg true } }) ∧
      ((∀ q, q < 32 → inGroup q) → Completes (.refclkLoss lg) s (fun t =>
        t.get F.LNK_GRP_STAT_refclk_ok lg = 0 ∧ (∀ q, q < 32 → t.get F.LNK_PORT_STAT_link lg q = 0) ∧
        t = { s with regs := t.regs, log := t.log, ports := { s.ports with refclk := s.ports.refclk.put lg false } } ∧
        regsKept s t [.LNK_GRP_STAT, .LNK_PORT_STAT, .LNK_LANE_STAT, .LOG_CNT, .LOG_STATUS]))) ∧
  (∀ (s : State) (lg p : Nat), lg < 16 → p < 32 →
      let span := (s.get F.LNK_PORT_EEE_tw_tx_us lg p + 1) * 1000
      (s.portUp lg p = true → s.flag F.LNK_PORT_EEE_en lg p = true → s.lpiType lg p = true →
        s.ports.active.getD (32 * lg + p) 0 + max 1 (s.get F.LNK_PORT_EEE_idle_us lg p) * 1000 ≤ s.upNs →
        s.newlyKnown.eventWithin lg p span = false → s.newlyKnown.legWaits lg p = false →
        Completes (.lpiEnter lg p) s (fun t => t.get F.LNK_PORT_STAT_lpi_tx lg p = 1 ∧ keptBut s t [⟨.LNK_PORT_STAT, lg, p⟩] ∧
          t = { s with regs := t.regs })) ∧
      (s.portUp lg p = false ∨ s.newlyKnown.eventWithin lg p span = true ∨ s.newlyKnown.legWaits lg p = true →
        Completes (.lpiEnter lg p) s (fun t => t = s)) ∧
      (s.flag F.LNK_PORT_STAT_lpi_tx lg p = true → (s.eventWithin lg p span = true ∨ s.legWaits lg p = true) →
        Completes (.lpiWake lg p) s (fun t => t.get F.LNK_PORT_STAT_lpi_tx lg p = 0 ∧ keptBut s t [⟨.LNK_PORT_STAT, lg, p⟩] ∧
          t = { s with regs := t.regs, ports := { s.ports with
            wake := s.ports.wake.put (32 * lg + p) (s.upNs + s.get F.LNK_PORT_EEE_tw_tx_us lg p * 1000) } })) ∧
      (s.flag F.LNK_PORT_STAT_lpi_tx lg p = false → Completes (.lpiWake lg p) s (fun t => t = s)) ∧
      (∀ enter : Bool, (s.portUp lg p = true → Completes (.lpiReceived lg p enter) s (fun t =>
          t.get F.LNK_PORT_STAT_lpi_rx lg p = bnat enter ∧ keptBut s t [⟨.LNK_PORT_STAT, lg, p⟩] ∧ t = { s with regs := t.regs })) ∧
        (s.portUp lg p = false → Completes (.lpiReceived lg p enter) s (fun t => t = s))))

/-- Gate lists (12 R300, R302): setting change arms the switch 2 µs ahead or, where the condition fails, sets cfg_err alone; at its
time the administrative bank becomes operational with its fields and a cycle begins; each cycle of a timed list begins one cycle
time after the last, one in transit mode at the trigger of a firing that has arrived, and its entries follow at their intervals; a
switch that is due comes before them; a disabled list has no events. Completion is stated for GATE_LIST_CHANGE, GATE_LIST_SWITCH and
GATE_EVENT. -/
def Obligations.GateListsSwitchAndCycle : Prop :=
  ∀ (s : State) (lg p : Nat), lg < 16 → p < 32 →
    (∀ (m : Master) (v : Reg64), s.admits m → s.flag F.LNK_PORT_GCTL_change lg p = false →
      let x := v ||| 0x2000000000000000
      (s.gateRefused lg p (bit v 63) (fld v 62 62) (fld v 60 52) (fld v 31 0) = false → Completes (.gateListChange m lg p v) s (fun t =>
        t.reg .LNK_PORT_GCTL lg p = codedWrite RegName.LNK_PORT_GCTL.info (s.reg .LNK_PORT_GCTL lg p) x ∧
        t.flag F.LNK_PORT_GCTL_change lg p = true ∧ t.gate lg p = { s.gate lg p with switchAfter := s.mtime + 2000 } ∧
        keptBut s t [⟨.LNK_PORT_GCTL, lg, p⟩] ∧ t = { s with regs := t.regs, ports := t.ports, bus := ⟨0, 0⟩ })) ∧
      (s.gateRefused lg p (bit v 63) (fld v 62 62) (fld v 60 52) (fld v 31 0) = true → Completes (.gateListChange m lg p v) s (fun t =>
        t.flag F.LNK_PORT_GCTL_change lg p = false ∧ t.get F.LNK_PORT_STAT_cfg_err lg p = 1 ∧ onlyRegs s t ∧
        keptBut s t [⟨.LNK_PORT_GCTL, lg, p⟩, ⟨.LNK_PORT_STAT, lg, p⟩]))) ∧
    (∀ (m : Master) (v : Reg64), s.admits m → s.flag F.LNK_PORT_GCTL_change lg p = true →
      Completes (.gateListChange m lg p v) s (fun t => t.get F.LNK_PORT_STAT_cfg_err lg p = 1 ∧ onlyRegs s t ∧
        keptBut s t [⟨.LNK_PORT_STAT, lg, p⟩])) ∧
    (∀ at_ : Nat, s.switchTime lg p = some at_ → s.flag F.LNK_PORT_GCTL_change lg p = true → at_ ≤ s.mtime →
      Completes (.gateListSwitch lg p) s (fun t =>
        (t.gate lg p).bank = 1 - (s.gate lg p).bank ∧ (t.gate lg p).en = s.flag F.LNK_PORT_GCTL_en lg p ∧
        (t.gate lg p).mode = s.get F.LNK_PORT_GCTL_mode lg p ∧ (t.gate lg p).count = clampNat (s.get F.LNK_PORT_GCTL_count lg p) 1 256 ∧
        (t.gate lg p).cycle = s.get F.LNK_PORT_GCTL_cycle_ns lg p ∧ (t.gate lg p).cycleAt = at_ ∧
        (t.gate lg p).next = ((s.gate lg p).next.filter (fun x => decide (at_ ≤ x))).erase at_ ∧
        t.get F.LNK_PORT_GCTL_change lg p = 0 ∧ keptBut s t [⟨.LNK_PORT_GCTL, lg, p⟩, ⟨.LNK_PORT_GSTAT, lg, p⟩] ∧
        t = { s with regs := t.regs, ports := t.ports })) ∧
    (s.switchDue lg p = true → Completes (.gateEvent lg p) s (fun t => Completes (.gateListSwitch lg p) s (fun u => t = u))) ∧
    (s.switchDue lg p = false →
      ((s.gate lg p).en = true → (s.gate lg p).mode = 0 → (s.gate lg p).cycle ≠ 0 → s.reached ((s.gate lg p).cycleAt + (s.gate lg p).cycle) = true →
        Completes (.gateEvent lg p) s (fun t =>
          (t.gate lg p).cycleAt = ((s.gate lg p).cycleAt + (s.gate lg p).cycle) % 2 ^ 64 ∧ (t.gate lg p).entryAt = (t.gate lg p).cycleAt ∧
          keptBut s t [⟨.LNK_PORT_GSTAT, lg, p⟩] ∧ t = { s with regs := t.regs, ports := t.ports })) ∧
      (∀ (a : Nat) (l : List Nat), (s.gate lg p).en = true → (s.gate lg p).mode = 1 → (s.gate lg p).next = a :: l → s.reached a = true →
        Completes (.gateEvent lg p) s (fun t =>
          (t.gate lg p).cycleAt = a ∧ (t.gate lg p).entryAt = a ∧ (t.gate lg p).next = l ∧
          keptBut s t [⟨.LNK_PORT_GSTAT, lg, p⟩] ∧ t = { s with regs := t.regs, ports := t.ports })) ∧
      ((s.gate lg p).en = true → (s.gate lg p).mode = 0 → s.reached ((s.gate lg p).cycleAt + (s.gate lg p).cycle) = false →
        (s.gate lg p).entry + 1 < (s.gate lg p).count →
        s.reached ((s.gate lg p).entryAt + s.gateInterval lg p (s.gate lg p) (s.gate lg p).entry) = true →
        Completes (.gateEvent lg p) s (fun t =>
          (t.gate lg p).entryAt = ((s.gate lg p).entryAt + s.gateInterval lg p (s.gate lg p) (s.gate lg p).entry) % 2 ^ 64 ∧
          (s.gate lg p).entry < (t.gate lg p).entry ∧ (t.gate lg p).cycleAt = (s.gate lg p).cycleAt ∧
          t = { s with ports := { s.ports with gates := t.ports.gates } })) ∧
      ((s.gate lg p).en = false → Completes (.gateEvent lg p) s (fun t => t = s)))

/-- Launch-time queues and what a port starts (12 R297-R299, R303, R304): an item of the transmit queue that is too long or names no
port is dropped and counted, one for a queue that is disabled or full is dropped and counted at the port, any other enters its
launch-time queue, where a head with launch 0 is released at once; the head is released when its launch time is reached; a released head
found late is counted once. A port that is busy or waking, or that transmits LPI, starts nothing; else it starts nothing while it has no
candidate, a waiting PTP message before anything else, then the head of a launch-time queue; a port that is down drops what it would start
and counts it. A gate event of the instant comes first. Completion is stated for TX_ITEM, LAUNCH_RELEASE, LAUNCH_LATE and
PORT_FRAME_START. -/
def Obligations.LaunchQueuesFeedThePort : Prop :=
  ∀ (s : State) (lg p q : Nat), lg < 16 → p < 32 → q < 8 →
    (s.flag F.LNK_TX_QUEUE_en lg = false → Completes (.txItem lg) s (fun t => t = s)) ∧
    (∀ (w w1 : Word) (ws : List Word) (u : State), s.flag F.LNK_TX_QUEUE_en lg = true →
      s.popItem (s.get F.LNK_TX_QUEUE_queue lg) = some (w :: w1 :: ws, u) → fld w 63 59 = p → fld w 58 56 = q →
      let f : LtFrame := ⟨fld w 127 64, fld w1 47 0, fld w 54 41, fld w 40 21, bit w 55, none, false, false⟩
      (u.get F.LNK_PORT_CFG_max_frame lg p < fld w 54 41 ∨ u.portExists lg p = false → Completes (.txItem lg) s (fun t =>
        t.get F.LNK_TX_CNT_drop lg = min (2 ^ (F.LNK_TX_CNT_drop.hi + 1 - F.LNK_TX_CNT_drop.lo) - 1) (s.get F.LNK_TX_CNT_drop lg + 1) ∧
        regsKept s t [.LNK_TX_CNT, .MEM_Q_CNT] ∧ t = { s with regs := t.regs, queues := t.queues, mem := t.mem })) ∧
      (fld w 54 41 ≤ u.get F.LNK_PORT_CFG_max_frame lg p → u.portExists lg p = true →
        (u.flag F.LNK_LT_CFG_en lg (8 * p + q) = false ∨ 4096 ≤ u.ltCount lg → Completes (.txItem lg) s (fun t =>
          t.get F.LNK_PORT_CNT1_lt_drop lg p = min (2 ^ (F.LNK_PORT_CNT1_lt_drop.hi + 1 - F.LNK_PORT_CNT1_lt_drop.lo) - 1)
            (s.get F.LNK_PORT_CNT1_lt_drop lg p + 1) ∧
          regsKept s t [.LNK_PORT_CNT1, .MEM_Q_CNT] ∧ t = { s with regs := t.regs, queues := t.queues, mem := t.mem })) ∧
        (u.flag F.LNK_LT_CFG_en lg (8 * p + q) = true → u.ltCount lg < 4096 → s.ltQueue lg p q ≠ [] → Completes (.txItem lg) s (fun t =>
          t.ltQueue lg p q = s.ltQueue lg p q ++ [f] ∧ t = { u with ports := t.ports })) ∧
        (u.flag F.LNK_LT_CFG_en lg (8 * p + q) = true → u.ltCount lg < 4096 → s.ltQueue lg p q = [] →
          (fld w 127 64 = 0 → Completes (.txItem lg) s (fun t =>
            t.ltQueue lg p q = [{ f with released := true }] ∧ t = { u with ports := t.ports })) ∧
          (fld w 127 64 ≠ 0 → u.pastLaunch lg p q f = false → Completes (.txItem lg) s (fun t =>
            t.ltQueue lg p q = [f] ∧ t = { u with ports := t.ports }))))) ∧
    (∀ (f : LtFrame) (rest : List LtFrame), s.ltQueue lg p q = f :: rest →
      (f.launch ≠ 0 → s.reached f.launch = true → Completes (.launchRelease lg p q) s (fun t =>
        t.ltQueue lg p q = { f with released := true } :: rest ∧ t = { s with ports := t.ports })) ∧
      (f.launch ≠ 0 → s.reached f.launch = false → Completes (.launchRelease lg p q) s (fun t => t = s)) ∧
      (f.released = true → f.late = false → s.pastLaunch lg p q f = true → s.flag F.LNK_LT_CFG_drop_late lg (8 * p + q) = false →
        Completes (.launchLate lg p q) s (fun t => t.ltQueue lg p q = { f with late := true } :: rest ∧
          t.get F.LNK_PORT_CNT1_lt_late lg p = min (2 ^ (F.LNK_PORT_CNT1_lt_late.hi + 1 - F.LNK_PORT_CNT1_lt_late.lo) - 1)
            (s.get F.LNK_PORT_CNT1_lt_late lg p + 1) ∧ keptBut s t [⟨.LNK_PORT_CNT1, lg, p⟩] ∧ t = { s with regs := t.regs, ports := t.ports })) ∧
      (f.released = false ∨ f.late = true ∨ s.pastLaunch lg p q f = false → Completes (.launchLate lg p q) s (fun t => t = s))) ∧
    (s.upNs < s.ports.busy.getD (32 * lg + p) 0 ∨ s.upNs < s.ports.wake.getD (32 * lg + p) 0 ∨ s.flag F.LNK_PORT_STAT_lpi_tx lg p = true →
      Completes (.portFrameStart lg p) s (fun t => t = s)) ∧
    (s.ports.busy.getD (32 * lg + p) 0 ≤ s.upNs → s.ports.wake.getD (32 * lg + p) 0 ≤ s.upNs → s.flag F.LNK_PORT_STAT_lpi_tx lg p = false →
      s.gateEvent lg p = s →
      (s.choose lg p = none → Completes (.portFrameStart lg p) s (fun t => t = s)) ∧
      (∀ (o : PtpOut) (rest : List PtpOut), s.ports.ptp.getD (32 * lg + p) [] = o :: rest → s.ptpReady lg p = true →
        (s.portUp lg p = true → Completes (.portFrameStart lg p) s (fun t =>
          (∃ f : List Byte, t.out = s.out ++ [.frame lg p (f ++ fcsOf f)] ∧ t.ports.busy.getD (32 * lg + p) 0 = s.upNs + s.txTime lg p (f.length + 4)) ∧
          t = { s with ports := t.ports, out := t.out, free := t.free })) ∧
        (s.portUp lg p = false → Completes (.portFrameStart lg p) s (fun t =>
          t.ports = { s.ports with ptp := s.ports.ptp.put (32 * lg + p) rest } ∧ t.out = s.out ∧
          t.get F.LNK_PORT_CNT1_tx_down lg p = min (2 ^ (F.LNK_PORT_CNT1_tx_down.hi + 1 - F.LNK_PORT_CNT1_tx_down.lo) - 1)
            (s.get F.LNK_PORT_CNT1_tx_down lg p + 1) ∧ keptBut s t [⟨.LNK_PORT_CNT1, lg, p⟩] ∧ t = { s with regs := t.regs, ports := t.ports }))) ∧
      (∀ (f : LtFrame) (rest : List LtFrame) (b : List Byte), s.portUp lg p = true → s.choose lg p = some (.launch q) →
        s.ltQueue lg p q = f :: rest → f.bytes = some b → Completes (.portFrameStart lg p) s (fun t =>
          t.out = s.out ++ [.frame lg p (padFrame b ++ fcsOf (padFrame b))] ∧ t.dram = s.dram)))

/-- The packetisers (12 R306-R309): an enable of a legal record enables the flow with the record's words, of another is refused with
result 3; a disable ends the flow and its frames in progress; a reload takes the record of an enabled flow and leaves another as it is; a
video flow's packets come one by one, each advancing the flow to its next packet, while the raster of its canvas has boundaries and its
composer is not halted (07 R180, R199). Completion is stated for PACKETISER_ENABLE, PACKETISER_DISABLE, PACKETISER_RELOAD and
VIDEO_PACKET_RELEASE. -/
def Obligations.PacketisersServeTheirFlows : Prop :=
  ∀ (s : State) (m : Master) (lg ticket f : Nat), lg < 16 → ticket < 256 → f < 256 →
    (s.admits m →
      let reported (t : State) (r : Nat) : Prop := t.get F.LNK_PKT_STAT_ticket lg = ticket ∧ t.get F.LNK_PKT_STAT_result lg = r ∧
        keptBut s t [⟨.LNK_PKT_STAT, lg, 0⟩] ∧ t = { s with regs := t.regs, ports := { s.ports with flows := t.ports.flows }, bus := ⟨0, 0⟩ } ∧
        (∀ g, g < 256 → g ≠ f → t.pktFlow lg g = s.pktFlow lg g)
      (s.flowLegal lg (s.words (s.flowAddr lg f) 7) = true → Completes (.packetiserEnable m lg ticket f) s (fun t => reported t 1 ∧
        t.pktFlow lg f = { s.pktFlow lg f with enabled := true, words := s.words (s.flowAddr lg f) 7 })) ∧
      (s.flowLegal lg (s.words (s.flowAddr lg f) 7) = false → Completes (.packetiserEnable m lg ticket f) s (fun t => reported t 3 ∧
        t.ports = s.ports)) ∧
      Completes (.packetiserDisable m lg ticket f) s (fun t => reported t 1 ∧
        t.pktFlow lg f = { s.pktFlow lg f with enabled := false, vids := [] }) ∧
      ((s.pktFlow lg f).enabled = true → Completes (.packetiserReload m lg ticket f) s (fun t => reported t 1 ∧
        t.pktFlow lg f = { s.pktFlow lg f with words := s.words (s.flowAddr lg f) 7 })) ∧
      ((s.pktFlow lg f).enabled = false → Completes (.packetiserReload m lg ticket f) s (fun t => reported t 1 ∧
        t.pktFlow lg f = s.pktFlow lg f))) ∧
    (∀ (v : Vid) (rest : List Vid), (s.pktFlow lg f).enabled = true → (s.pktFlow lg f).vids = v :: rest →
      (s.flag F.MTB_STATUS_run = true → s.raster v.raster ≠ none → s.get F.CMP_STATUS_state v.cmp ≠ 3 →
        Completes (.videoPacketRelease lg f) s (fun t =>
          (t.pktFlow lg f).vids = (if vidPackets (s.pktFlow lg f) v ≤ v.j + 1 then rest else { v with j := v.j + 1 } :: rest) ∧
          (t.pktFlow lg f).enabled = true ∧ (t.pktFlow lg f).words = (s.pktFlow lg f).words ∧
          t = { s with regs := t.regs, dram := t.dram, ports := { s.ports with flows := t.ports.flows, lt := t.ports.lt } })) ∧
      (s.flag F.MTB_STATUS_run = false ∨ s.raster v.raster = none ∨ s.get F.CMP_STATUS_state v.cmp = 3 →
        Completes (.videoPacketRelease lg f) s (fun t => t = s))) ∧
    ((s.pktFlow lg f).enabled = false → Completes (.videoPacketRelease lg f) s (fun t => t = s))

/-- The MAC's tests in their order, each with its counter (12 R294, R295, R296): a port without link takes nothing; a frame below 64
bytes, with a bad FCS, too long, of type 0x8808 or not addressed here, or without room, is dropped and counted; any other joins
the receive buffer with its arrival time. The pipeline takes the next frame of a receive buffer (03 R62, R63): nothing of it is
seen with ingress off; a frame with a bad checksum is counted; a packet of a blocked stream, or of one from a stopped leg, is
dropped and counted; a packet in the clear of an unmetered, unmerged stream of this link group takes a buffer of the pool in guarded
memory of the quadrant and waits for its walk, and without one is dropped and counted. Completion is stated for FRAME_RECEIVE and
INGRESS_PIPELINE. -/
def Obligations.FramesEnterThePipeline : Prop :=
  (∀ (s : State) (lg p : Nat) (b : List Byte) (good : Bool), lg < 16 → p < 32 →
      let dropped (f : RegField) : Prop := Completes (.frameReceive lg p b good) s (fun t =>
        t.get f lg p = min (2 ^ (f.hi + 1 - f.lo) - 1) (s.get f lg p + 1) ∧ keptBut s t [⟨f.reg, lg, p⟩] ∧ t = { s with regs := t.regs })
      (s.portUp lg p = false → Completes (.frameReceive lg p b good) s (fun t => t = s)) ∧
      (s.portUp lg p = true →
        (b.length < 60 → dropped F.LNK_PORT_CNT0_runt) ∧
        (60 ≤ b.length → good = false → dropped F.LNK_PORT_CNT0_fcs) ∧
        (60 ≤ b.length → good = true → s.get F.LNK_PORT_CFG_max_frame lg p < b.length → dropped F.LNK_PORT_CNT0_giant) ∧
        (60 ≤ b.length → good = true → b.length ≤ s.get F.LNK_PORT_CFG_max_frame lg p →
          (netAt b 12 2 = 0x8808 → dropped F.LNK_PORT_CNT1_filt_drop) ∧
          (netAt b 12 2 ≠ 0x8808 → s.accepts lg p (b.take 6) = false → dropped F.LNK_PORT_CNT1_filt_drop) ∧
          (netAt b 12 2 ≠ 0x8808 → s.accepts lg p (b.take 6) = true → s.rxRoom lg p b.length = false → dropped F.LNK_PORT_CNT0_rx_ovf) ∧
          (netAt b 12 2 ≠ 0x8808 → s.accepts lg p (b.take 6) = true → s.rxRoom lg p b.length = true →
            Completes (.frameReceive lg p b good) s (fun t =>
              t = { s with fwd := { s.fwd with rx := s.fwd.rx.put lg (s.fwd.rx.getD lg [] ++ [⟨p, b, s.mtime, s.upNs⟩]) } }))))) ∧
  (∀ (s : State) (lg p : Nat) (f : RxFrame), lg < 16 →
      nextPort (s.fwd.rxTurn.getD lg 31) (s.fwd.rx.getD lg []) = some p →
      (s.fwd.rx.getD lg []).find? (fun f => f.port == p) = some f →
      let u : State := { s with fwd := { s.fwd with rx := s.fwd.rx.put lg (dropFirst (fun f => f.port == p) (s.fwd.rx.getD lg [])), rxTurn := s.fwd.rxTurn.put lg p } }
      (s.flag F.LNK_ING_CTRL_en lg = false → Completes (.ingressPipeline lg) s (fun t => t = u)) ∧
      (s.flag F.LNK_ING_CTRL_en lg = true → parse f.bytes = .ipck → Completes (.ingressPipeline lg) s (fun t =>
        t.get F.LNK_ING_CNT_ipck lg = min (2 ^ (F.LNK_ING_CNT_ipck.hi + 1 - F.LNK_ING_CNT_ipck.lo) - 1) (s.get F.LNK_ING_CNT_ipck lg + 1) ∧
        keptBut s t [⟨.LNK_ING_CNT, lg, 0⟩] ∧ t = { u with regs := t.regs })) ∧
      (∀ (r : Parsed) (i : Nat), s.flag F.LNK_ING_CTRL_en lg = true → parse f.bytes = .fast r →
        u.lookup ⟨r.ipv6, r.src, r.dst, r.sport, r.dport,
          if r.rtcp then netAt (slice f.bytes r.pay r.len) 4 4 else netAt (slice f.bytes r.pay r.len) 8 4⟩ = some i → s.recGet i 3 11 8 = lg →
        ((s.fwd.streamBlock.get? (lgKey lg i)).isSome = true ∨ (s.fwd.legStop.get? (lgKey lg (s.recGet i 3 127 110))).isSome = true →
          Completes (.ingressPipeline lg) s (fun t =>
            t.get F.LNK_ING_CNT_stop_drop lg = min (2 ^ (F.LNK_ING_CNT_stop_drop.hi + 1 - F.LNK_ING_CNT_stop_drop.lo) - 1)
              (s.get F.LNK_ING_CNT_stop_drop lg + 1) ∧ t.fwd.walk = s.fwd.walk ∧ t.fwd.pool = s.fwd.pool ∧ t.queues = s.queues ∧ t.dram = s.dram)) ∧
        (s.fwd.streamBlock.get? (lgKey lg i) = none → s.fwd.legStop.get? (lgKey lg (s.recGet i 3 127 110)) = none →
          r.rtcp = false → fld (s.word (s.recAddr i + 32)) 55 40 = 0xFFFF → fld (s.word (s.recAddr i + 32)) 39 20 = noCtx →
          (∀ m, m < 256 → s.flag F.LNK_MRG_en lg m = false) →
          (s.takeBuf lg = none → Completes (.ingressPipeline lg) s (fun t =>
            t.get F.LNK_ING_CNT_buf_empty lg = min (2 ^ (F.LNK_ING_CNT_buf_empty.hi + 1 - F.LNK_ING_CNT_buf_empty.lo) - 1)
              (s.get F.LNK_ING_CNT_buf_empty lg + 1) ∧ t.fwd.walk = s.fwd.walk ∧ t.fwd.pool = s.fwd.pool ∧ t.fwd.bufs = s.fwd.bufs)) ∧
          (∀ (a : Nat) (v : State), s.takeBuf lg = some (a, v) → Completes (.ingressPipeline lg) s (fun t =>
            a ∈ s.fwd.pool.getD lg [] ∧ s.bufPlaced lg a = true ∧ t.fwd.pool.getD lg [] = (s.fwd.pool.getD lg []).erase a ∧ (∃ pw : Word, t.fwd.walk.getD lg [] = s.fwd.walk.getD lg [] ++ [⟨i, pw, a⟩] ∧ fld pw 63 44 = i) ∧
            (∃ b : Buf, t.fwd.bufs.get? a = some b ∧ b.lg = lg ∧ b.len = (slice f.bytes r.pay r.len).length ∧ b.copies = 1 ∧ b.hold = true))))))

/-- Flow commands (03 R70, R71, R72): each is refused with result 6 at a full queue and else served in order; an insert of an invalid
record gives 5, of a key confirmed already 3, into full buckets 2, and else writes the slot that names the stream; a delete,
update or sync of a stream without a slot gives 4 and does nothing; the completion reports the result and counts. While a stop command
waits, which is served ahead, a flow command waits unserved (03 R74). Completion is stated for INSERT, DELETE, UPDATE, FLOW_SYNC and
FLOW_CMD_COMPLETE. -/
def Obligations.FlowCommandsKeepTheTable : Prop :=
  (∀ (s : State) (m : Master) (ticket i : Nat), s.admits m → ticket < 256 → i < 2 ^ 20 →
    let queued (op n : Nat) (t : State) : Prop := t.fwd.flowQ = [⟨op, ticket, i, 0, 0, some n⟩] ∧ t.regs = s.regs
    (64 ≤ s.fwd.flowQ.length → (∀ c ∈ s.fwd.flowQ, c.served ≠ none) →
      ∀ c ∈ [Instr.insert m ticket i, .delete m ticket i, .update m ticket i, .flowSync m ticket i], Completes c s (fun t =>
        t.get F.LNK_FLOW_STAT_result = 6 ∧ t.get F.LNK_FLOW_STAT_ticket = ticket ∧ onlyRegs s t ∧ keptBut s t [⟨.LNK_FLOW_STAT, 0, 0⟩])) ∧
    (s.fwd.stopQ ≠ [] → s.fwd.flowQ.length < 64 →
      ∀ c ∈ [(1, Instr.insert m ticket i), (2, .delete m ticket i), (3, .update m ticket i), (4, .flowSync m ticket i)], Completes c.2 s (fun t =>
        t = { s with bus := ⟨0, 0⟩, fwd := { s.fwd with flowQ := s.fwd.flowQ ++ [⟨c.1, ticket, i, 0, 0, none⟩] } })) ∧
    (s.fwd.flowQ = [] → s.fwd.stopQ = [] →
      (bit (s.word (s.recAddr i + 32)) 63 = false → Completes (.insert m ticket i) s (fun t => queued 1 5 t ∧ t.dram = s.dram)) ∧
      (bit (s.word (s.recAddr i + 32)) 63 = true → (s.lookup (s.recKey i)).isSome = true →
        Completes (.insert m ticket i) s (fun t => queued 1 3 t ∧ t.dram = s.dram)) ∧
      (bit (s.word (s.recAddr i + 32)) 63 = true → s.lookup (s.recKey i) = none → (∀ e ∈ s.keySlots (s.recKey i), slotValid e.2 = true) →
        Completes (.insert m ticket i) s (fun t => queued 1 2 t ∧ t.dram = s.dram)) ∧
      (bit (s.word (s.recAddr i + 32)) 63 = true → s.lookup (s.recKey i) = none → (∃ e ∈ s.keySlots (s.recKey i), slotValid e.2 = false) →
        s.memOk → (∀ e ∈ s.keySlots (s.recKey i), s.tileBase e.1 ≠ none) →
        Completes (.insert m ticket i) s (fun t => queued 1 1 t ∧ ∃ e ∈ s.keySlots (s.recKey i), slotValid e.2 = false ∧
          leNat (t.rd e.1 8) = 2 ^ 63 + (s.recKey i).places.2.2 * 2 ^ 40 + i ∧
          (∀ x n, x / 512 ≠ e.1 / 512 → x % 512 + n ≤ 512 → t.rdTile x n = s.rdTile x n))) ∧
      (s.keySlotOf i = none →
        Completes (.delete m ticket i) s (fun t => queued 2 4 t ∧ t.dram = s.dram ∧ t.fwd.recCache = s.fwd.recCache) ∧
        Completes (.update m ticket i) s (fun t => queued 3 4 t ∧ t.dram = s.dram ∧ t.fwd.recCache = s.fwd.recCache) ∧
        Completes (.flowSync m ticket i) s (fun t => queued 4 4 t ∧ t.dram = s.dram ∧ t.fwd.recCache = s.fwd.recCache)) ∧
      (∀ a, s.keySlotOf i = some a →
        Completes (.delete m ticket i) s (fun t => t.fwd.flowQ = [⟨2, ticket, i, 0, 0, some 1⟩] ∧
          t.fwd.recCache = s.fwd.recCache.del i ∧ t.dram = ((s.writeBackRec i).wr a (leBytes 8 0)).dram) ∧
        (fld (s.word (s.recAddr i + 48)) 11 8 = s.recGet i 3 11 8 → Completes (.update m ticket i) s (fun t => queued 3 1 t ∧
          t.dram = s.dram ∧ t.fwd.recCache = s.fwd.recCache.put i (s.word (s.recAddr i + 48) :: (s.recWords i).drop 1))) ∧
        (fld (s.word (s.recAddr i + 48)) 11 8 ≠ s.recGet i 3 11 8 → Completes (.update m ticket i) s (fun t =>
          t.fwd.flowQ = [⟨3, ticket, i, 0, 0, some 1⟩] ∧ t.dram = (s.writeBackRec i).dram ∧
          t.fwd.recCache = s.fwd.recCache.put i (t.words (s.recAddr i + 48) 5))) ∧
        Completes (.flowSync m ticket i) s (fun t => t.fwd.flowQ = [⟨4, ticket, i, 0, 0, some 1⟩] ∧
          t.dram = (s.writeBackRec i).dram ∧ t.fwd.recCache = s.fwd.recCache)))) ∧
  (∀ (s : State) (c : Cmd) (rest : List Cmd), s.fwd.flowQ = c :: rest → c.served = none → s.fwd.stopQ ≠ [] →
    Completes .flowCmdComplete s (fun t => t = s)) ∧
  (∀ (s : State) (c : Cmd) (rest : List Cmd) (n : Nat), s.fwd.flowQ = c :: rest → c.served = some n → n < 16 → c.ticket < 256 →
    Completes .flowCmdComplete s (fun t => t.get F.LNK_FLOW_STAT_ticket = c.ticket ∧ t.get F.LNK_FLOW_STAT_result = n ∧
      t.get F.LNK_FLOW_STAT_done = (s.get F.LNK_FLOW_STAT_done + 1) % 2 ^ (F.LNK_FLOW_STAT_done.hi + 1 - F.LNK_FLOW_STAT_done.lo) ∧
      keptBut s t [⟨.LNK_FLOW_STAT, 0, 0⟩] ∧ t = { s with regs := t.regs, fwd := { s.fwd with flowQ := rest } }))

/-- Stop commands (03 R73, R74, R75; 04 R115): a command joins the queue, or is refused with result 2 at a full queue or 3 for a leg
that does not exist; each link group applies it to its own bits, sweeps a stopped leg's waiting copies and acknowledges; with all
16 acknowledgements the head completes with result 1. Completion is stated for STOP_LEG, RESTART_LEG, BLOCK_STREAM, UNBLOCK_STREAM,
STOP_APPLY, STOP_SWEEP_DONE and STOP_COMPLETE. -/
def Obligations.StopCommandsReachEveryGroup : Prop :=
  (∀ (s : State) (m : Master) (ticket i : Nat), s.admits m → ticket < 256 → i < 2 ^ 20 →
    let cmds : List (Nat × Instr) := [(1, .stopLeg m ticket i), (2, .restartLeg m ticket i), (3, .blockStream m ticket i), (4, .unblockStream m ticket i)]
    ∀ c ∈ cmds,
      (64 ≤ s.fwd.stopQ.length → Completes c.2 s (fun t => t.get F.LNK_STOP_STAT_result = 2 ∧ t.get F.LNK_STOP_STAT_ticket = ticket ∧
        onlyRegs s t ∧ keptBut s t [⟨.LNK_STOP_STAT, 0, 0⟩])) ∧
      (s.fwd.stopQ.length < 64 → c.1 ≤ 2 → 262144 ≤ i → Completes c.2 s (fun t => t.get F.LNK_STOP_STAT_result = 3 ∧
        t.get F.LNK_STOP_STAT_ticket = ticket ∧ onlyRegs s t ∧ keptBut s t [⟨.LNK_STOP_STAT, 0, 0⟩])) ∧
      (s.fwd.stopQ.length < 64 → (3 ≤ c.1 ∨ i < 262144) → Completes c.2 s (fun t =>
        t = { s with bus := ⟨0, 0⟩, fwd := { s.fwd with stopQ := s.fwd.stopQ ++ [⟨c.1, ticket, i, [], []⟩] } }))) ∧
  (∀ (s : State) (lg : Nat) (c : StopCmd) (rest : List StopCmd), lg < 16 → s.fwd.stopQ = c :: rest → c.index < 2 ^ 20 →
    (lg ∉ c.applied → Completes (.stopApply lg) s (fun t =>
      t.fwd.stopQ = { c with applied := c.applied ++ [lg] } :: rest ∧
      (c.op ≤ 2 → t.fwd.streamBlock = s.fwd.streamBlock ∧
        t.fwd.legStop = if c.op = 1 then s.fwd.legStop.put (lgKey lg c.index) true else s.fwd.legStop.del (lgKey lg c.index)) ∧
      (2 < c.op → t.fwd.legStop = s.fwd.legStop ∧
        t.fwd.streamBlock = if c.op = 3 then s.fwd.streamBlock.put (lgKey lg c.index) true else s.fwd.streamBlock.del (lgKey lg c.index)) ∧
      t = { s with fwd := { s.fwd with stopQ := t.fwd.stopQ, legStop := t.fwd.legStop, streamBlock := t.fwd.streamBlock } })) ∧
    (lg ∈ c.applied → lg ∉ c.acked → Completes (.stopSweepDone lg) s (fun t =>
      t.fwd.stopQ = { c with acked := c.acked ++ [lg] } :: rest ∧
      (c.op = 1 → s.fwd.legQ.getD (lgKey lg c.index) [] ≠ [] → t.fwd.legQ = s.fwd.legQ.del (lgKey lg c.index)) ∧
      (c.op ≠ 1 → t = { s with fwd := { s.fwd with stopQ := t.fwd.stopQ } }) ∧ regsKept s t [.LNK_EGR_CNT] ∧
      t = { s with regs := t.regs, fwd := { s.fwd with stopQ := t.fwd.stopQ, legQ := t.fwd.legQ, bufs := t.fwd.bufs, legCache := t.fwd.legCache } })) ∧
    (c.acked.length = 16 → c.ticket < 256 → Completes .stopComplete s (fun t => t.get F.LNK_STOP_STAT_ticket = c.ticket ∧
      t.get F.LNK_STOP_STAT_result = 1 ∧ keptBut s t [⟨.LNK_STOP_STAT, 0, 0⟩] ∧
      t = { s with regs := t.regs, fwd := { s.fwd with stopQ := rest } })) ∧
    (c.acked.length < 16 → Completes .stopComplete s (fun t => t = s)))

/-- Rates and records (03 R66, R77, R87; 04 R93, R95, R117): a write of a policer's or a class shaper's register leaves both its
buckets full at the sizes then held; a record's cached words are written back where the record stands; a buffer the program holds
goes back to the pool of its link group when it is returned, and any other return does nothing. Completion is stated for POLICER_CONFIG_WRITE,
CLASS_SHAPER_WRITE, RECORD_WRITEBACK and BUF_RET. -/
def Obligations.RatesRecordsAndReturns : Prop :=
  (∀ (s : State) (m : Master) (lg i which : Nat) (v : Reg64), s.admits m → lg < 16 → which < 2 →
    (i < 65535 → Completes (.policerConfigWrite m lg i which v) s (fun t =>
      t.fwd.policers.get? (lg * 65536 + i) = some ⟨(t.get F.LNK_POL_CFG1_cbs lg i * 8000000 : Nat), (t.get F.LNK_POL_CFG1_pbs lg i * 8000000 : Nat), s.upNs⟩ ∧
      keptBut s t [⟨if which = 0 then .LNK_POL_CFG0 else .LNK_POL_CFG1, lg, i⟩] ∧ (which = 1 → t.get F.LNK_POL_CFG1_cbs lg i = fld v F.LNK_POL_CFG1_cbs.hi F.LNK_POL_CFG1_cbs.lo) ∧
      t = { s with regs := t.regs, bus := ⟨0, 0⟩, fwd := { s.fwd with policers := t.fwd.policers } })) ∧
    (i < 256 → Completes (.classShaperWrite m lg i which v) s (fun t =>
      t.fwd.classB.get? (256 * lg + i) = some ⟨(t.get F.LNK_CLASS_SHP1_cbs lg i * 8000000 : Nat), (t.get F.LNK_CLASS_SHP1_pbs lg i * 8000000 : Nat), s.upNs⟩ ∧
      keptBut s t [⟨if which = 0 then .LNK_CLASS_SHP0 else .LNK_CLASS_SHP1, lg, i⟩] ∧ (which = 0 → t.get F.LNK_CLASS_SHP0_cir lg i = fld v F.LNK_CLASS_SHP0_cir.hi F.LNK_CLASS_SHP0_cir.lo) ∧
      t = { s with regs := t.regs, bus := ⟨0, 0⟩, fwd := { s.fwd with classB := t.fwd.classB } }))) ∧
  (∀ (s : State) (i : Nat), s.memOk →
    (∀ a b : Word, s.fwd.subCache.get? i = some [a, b] → s.tileBase (s.subAddr i) ≠ none → Completes (.recordWriteback .sub i) s (fun t =>
      t.word (s.subAddr i + 32) = a ∧ t.word (s.subAddr i + 48) = b ∧ t.word (s.subAddr i) = s.word (s.subAddr i) ∧ t = { s with dram := t.dram })) ∧
    (∀ w3 w4 w5 w6 w7 : Word, s.fwd.recCache.get? i = some [w3, w4, w5, w6, w7] → s.tileBase (s.recAddr i) ≠ none →
      Completes (.recordWriteback .stream i) s (fun t =>
        t.words (s.recAddr i + 64) 4 = [w4, w5, w6, w7] ∧ t.words (s.recAddr i) 4 = s.words (s.recAddr i) 4 ∧ t = { s with dram := t.dram })) ∧
    (∀ x w5 w6 w7 : Word, s.fwd.legCache.get? i = some [x, w5, w6, w7] → s.tileBase (s.legAddr i) ≠ none →
      Completes (.recordWriteback .leg i) s (fun t => t.words (s.legAddr i + 80) 3 = [w5, w6, w7] ∧
        fld (t.word (s.legAddr i + 64)) 63 48 = fld x 63 48 ∧ t.words (s.legAddr i) 4 = s.words (s.legAddr i) 4 ∧ t = { s with dram := t.dram }))) ∧
  (∀ (s : State) (m : Master) (lg a : Nat) (v : Reg64), s.admits m → lg < 16 → fld v 47 0 = a →
    (∀ b : Buf, s.fwd.bufs.get? a = some b → b.prog = true → b.lg = lg → Completes (.bufRet m lg v) s (fun t =>
      t = { s with bus := ⟨0, 0⟩, fwd := { s.fwd with pool := s.fwd.pool.put lg (s.fwd.pool.getD lg [] ++ [a]), bufs := s.fwd.bufs.del a } })) ∧
    (∀ b : Buf, s.fwd.bufs.get? a = some b → (b.prog = false ∨ b.lg ≠ lg) →
      Completes (.bufRet m lg v) s (fun t => t = { s with bus := ⟨0, 0⟩ })) ∧
    (s.fwd.bufs.get? a = none → Completes (.bufRet m lg v) s (fun t => t = { s with bus := ⟨0, 0⟩ })))

/-- Selection commands of a link group (04 R100, R101, R107): refused with result 2 at a full queue, 3 for an operand out of range,
and else served: a select of the current layers drops the pending selection, of others makes it pending, a clear selects nothing,
a refresh marks its request sent, and without refresh_q asks nobody, a leg's reload takes words 3 and 4 from memory, a room's reload its
members, the device's fields kept for those that remain; the completion reports result 1. Completion is stated for SELECT, REFRESH, CLEAR,
RELOAD_LEG, RELOAD_ROOM and SEL_CMD_COMPLETE. -/
def Obligations.SelectionCommandsAreServed : Prop :=
  ∀ (s : State) (m : Master) (lg ticket sp t i : Nat), s.admits m → lg < 16 → ticket < 256 → sp < 16 → t < 16 → i < 2 ^ 24 →
    let q := s.fwd.selQ.getD lg []
    let cmds : List (Nat × Instr) := [(1, .select m lg ticket sp t i), (2, .refresh m lg ticket i), (3, .clear m lg ticket i),
      (4, .reloadLeg m lg ticket i), (5, .reloadRoom m lg ticket i)]
    let refused (n : Nat) (u : State) : Prop := u.get F.LNK_SEL_STAT_result lg = n ∧ u.get F.LNK_SEL_STAT_ticket lg = ticket ∧
      keptBut s u [⟨.LNK_SEL_STAT, lg, 0⟩] ∧ u.dram = s.dram ∧ u.fwd.subCache = s.fwd.subCache ∧ u.fwd.legCfg = s.fwd.legCfg ∧ u.fwd.rooms = s.fwd.rooms
    (64 ≤ q.length → (∀ c ∈ q, c.served ≠ none) → ∀ c ∈ cmds, Completes c.2 s (refused 2)) ∧
    (q = [] → 7 < sp → sp ≠ 15 → Completes (.select m lg ticket sp t i) s (refused 3)) ∧
    (q = [] → 262144 ≤ i → Completes (.reloadLeg m lg ticket i) s (refused 3)) ∧
    (q = [] → 16384 ≤ i → Completes (.reloadRoom m lg ticket i) s (refused 3)) ∧
    (q = [] → (sp = 15 ∨ (sp ≤ 7 ∧ t ≤ 7)) →
      let same := ((s.sub i).curS = sp ∧ (s.sub i).curT = t) ∨ (sp = 15 ∧ (s.sub i).curS = 15)
      let x : Sub := { s.sub i with pend := true, pendS := sp, pendT := t, pendPics := 0, reqSent := false }
      let asks := fld (s.word (s.subAddr i)) 93 92 = 1 ∧ x.downType (fld (s.word (s.subAddr i)) 109 108) = false ∧
        fld (s.word (s.subAddr i + 16)) 107 88 ≠ noQueue
      let served (u : State) : Prop := u.fwd.selQ.getD lg [] = [⟨1, ticket, sp, t, i, some 1⟩] ∧ u.dram = s.dram
      (same → Completes (.select m lg ticket sp t i) s (fun u => served u ∧
        u.fwd.subCache = s.fwd.subCache.put i (Sub.toWords { s.sub i with pend := false }) ∧ u.queues = s.queues ∧ u.regs = s.regs)) ∧
      (¬ same → ¬ asks → Completes (.select m lg ticket sp t i) s (fun u => served u ∧
        u.fwd.subCache = s.fwd.subCache.put i x.toWords ∧ u.queues = s.queues ∧ u.regs = s.regs)) ∧
      (¬ same → asks → Completes (.select m lg ticket sp t i) s (fun u => served u ∧
        u.sub i = { x with refreshes := min 65535 (x.refreshes + 1), reqSent := true }))) ∧
    (q = [] → Completes (.clear m lg ticket i) s (fun u =>
        u.fwd.subCache = s.fwd.subCache.put i (Sub.toWords { s.sub i with curS := 15, curT := 15, pend := false }) ∧
        u.regs = s.regs ∧ u.dram = s.dram ∧ u.fwd.selQ.getD lg [] = [⟨3, ticket, 0, 0, i, some 1⟩])) ∧
    (q = [] → fld (s.word (s.subAddr i + 16)) 107 88 ≠ noQueue → Completes (.refresh m lg ticket i) s (fun u =>
        u.sub i = { s.sub i with refreshes := min 65535 ((s.sub i).refreshes + 1), reqSent := true } ∧
        u.dram = s.dram ∧ u.fwd.selQ.getD lg [] = [⟨2, ticket, 0, 0, i, some 1⟩])) ∧
    (q = [] → fld (s.word (s.subAddr i + 16)) 107 88 = noQueue → Completes (.refresh m lg ticket i) s (fun u =>
        u.fwd.subCache = s.fwd.subCache ∧ u.queues = s.queues ∧ u.regs = s.regs ∧ u.fwd.selQ.getD lg [] = [⟨2, ticket, 0, 0, i, some 1⟩])) ∧
    (q = [] → i < 262144 → Completes (.reloadLeg m lg ticket i) s (fun u =>
        u.fwd.legCfg.get? i = some (s.words (s.legAddr i + 48) 2) ∧ u.dram = s.dram ∧ u.regs = s.regs ∧
        u.fwd.selQ.getD lg [] = [⟨4, ticket, 0, 0, i, some 1⟩])) ∧
    (q = [] → i < 16384 → Completes (.reloadRoom m lg ticket i) s (fun u =>
        (u.fwd.rooms.get? i).isSome = true ∧ (members (u.room i)).map (·.stream) = (members (s.words (s.roomAddr i) 32)).map (·.stream) ∧
        (∀ n ∈ members (u.room i), (∀ o ∈ ((s.fwd.rooms.get? i).map members).getD [], o.stream ≠ n.stream) →
          n.sel = false ∧ n.smooth = 0 ∧ n.since = 0) ∧
        (∀ n ∈ members (u.room i), ∀ o, (((s.fwd.rooms.get? i).map members).getD []).find? (fun o => o.stream == n.stream) = some o →
          n.sel = o.sel ∧ n.smooth = o.smooth ∧ n.since = o.since))) ∧
    (∀ (c : Cmd) (rest : List Cmd), q = c :: rest → c.served ≠ none → c.ticket < 256 → Completes (.selCmdComplete lg) s (fun u =>
        u.fwd.selQ.getD lg [] = rest ∧ u.get F.LNK_SEL_STAT_ticket lg = c.ticket ∧ u.get F.LNK_SEL_STAT_result lg = 1 ∧
        keptBut s u [⟨.LNK_SEL_STAT, lg, 0⟩] ∧ u = { s with regs := u.regs, fwd := { s.fwd with selQ := s.fwd.selQ.put lg rest } }))

/-- Renumbering (04 R104) of one subscription: the first selected packet leaves as last_out + 1; a packet after the newest leaves as
its number less the count of those dropped in between, and one not selected moves the offset by one; a repeated number never makes
a second copy, and a number passed before a drop is counted late. -/
def Obligations.RenumberingClosesTheGaps : Prop :=
  ∀ (x : Sub) (seq : Nat), seq < 65536 → x.lastIn < 65536 → x.seqOff < 65536 → x.lastOut < 65536 → x.dropSeq < 65536 →
    let delta := (seq + 65536 - x.lastIn) % 65536
    (x.seqInit = false → (x.renumber true seq).2 = some ((x.lastOut + 1) % 65536) ∧ (x.renumber true seq).1.seqInit = true ∧
      (x.renumber true seq).1.lastIn = seq ∧ (x.renumber false seq).2 = none ∧ (x.renumber false seq).1.seqInit = false) ∧
    (x.seqInit = true → 0 < delta → delta < 32768 →
      (x.renumber true seq).2 = some ((seq + 65536 - x.seqOff) % 65536) ∧ (x.renumber true seq).1.seqOff = x.seqOff ∧
      (x.renumber true seq).1.lastIn = seq ∧
      (x.renumber false seq).2 = none ∧ (x.renumber false seq).1.seqOff = (x.seqOff + 1) % 65536 ∧ (x.renumber false seq).1.dropSeq = seq ∧
      (∀ next, next < 65536 → 0 < (next + 65536 - seq) % 65536 → (next + 65536 - seq) % 65536 < 32768 →
        ((x.renumber false seq).1.renumber true next).2 = some ((next + 2 * 65536 - x.seqOff - 1) % 65536))) ∧
    (x.seqInit = true → delta = 0 → ∀ sel, (x.renumber sel seq).2 = none ∧ (x.renumber sel seq).1.seqOff = x.seqOff) ∧
    (x.seqInit = true → 32768 ≤ delta → ¬ (1 ≤ (seq + 65536 - x.dropSeq) % 65536 ∧ (seq + 65536 - x.dropSeq) % 65536 ≤ 32767) → (x.renumber true seq).2 = none ∧
      (x.renumber true seq).1.late = min 65535 (x.late + 1))

/-- A packet's walk (04 R97, R117), its copies (04 R109, R113, R115) and its buffer (04 R106, R112, R114): with egress disabled a
walked packet makes no copy; a copy of a stopped leg is dropped and counted, one for a full queue is dropped and counted, any
other waits at its leg; a local item's packet waits for its walk, a blocked one's buffer goes back; a buffer nothing holds is
released; a request for a packet no history holds answers result 1 in its place, one at a stopped leg result 3, and one for a packet
that is held waits at the leg as a copy. A walk takes the packet's list: an entry of a leg in service whose subscription selects the
packet makes one copy, renumbered, for the leg's link group (04 R97, R99, R104). Completion is stated for REPLICATION_WALK, COPY_ENQUEUE,
LOCAL_PACKET_INTAKE, BUFFER_HOLD_EXPIRY, BUFFER_RELEASE and RETRANSMIT_REQUEST. -/
def Obligations.PacketsAreWalkedAndReleased : Prop :=
  ∀ (s : State) (lg : Nat), lg < 16 →
    (∀ (p : Pkt) (rest : List Pkt) (b : Buf), s.fwd.walk.getD lg [] = p :: rest → s.flag F.LNK_EGR_CTRL_en lg = false →
      s.fwd.bufs.get? p.buf = some b → Completes (.replicationWalk lg) s (fun t =>
        t = { s with fwd := { s.fwd with walk := s.fwd.walk.put lg rest, bufs := s.fwd.bufs.put p.buf { b with copies := b.copies - 1 } } })) ∧
    (s.fwd.walk.getD lg [] = [] → Completes (.replicationWalk lg) s (fun t => t = s)) ∧
    (∀ (p : Pkt) (rest : List Pkt) (b : Buf) (e : Nat), s.fwd.walk.getD lg [] = p :: rest → s.flag F.LNK_EGR_CTRL_en lg = true →
      s.fwd.bufs.get? p.buf = some b → s.recGet p.stream 3 63 32 < 8388608 →
      blockEntries (s.replBlock (s.recGet p.stream 3 63 32)) = [e] → e.testBit 31 = true →
      8388608 ≤ fld (((s.replBlock (s.recGet p.stream 3 63 32))[0]?).getD 0) 31 0 →
      let i := e % 2 ^ 24
      let w0 := s.word (s.subAddr i)
      let leg := fld w0 127 110
      let kind := fld w0 109 108
      let seq := netAt (s.rd p.buf 16) 2 2
      let x := (s.sub i).settle
      let y := x.renumber (x.selects kind (fld p.pw 22 20) (fld p.pw 19 17)) seq
      let mark := decide (bAt (s.rd p.buf 16) 1 ≥ 128) || (kind == 0 && bit p.pw 25 && fld p.pw 22 20 == x.curS)
      let out := fld (s.word (s.legAddr leg + 32)) 23 20
      bit (s.word (s.legAddr leg + 32)) 30 = true → s.fwd.legStop.get? (lgKey lg leg) = none → kind < 2 → (s.sub i).pend = false →
      Completes (.replicationWalk lg) s (fun t =>
        t.fwd.walk = s.fwd.walk.put lg rest ∧ t.fwd.subCache.get? i = some y.1.toWords ∧
        (∀ n, y.2 = some n → t.fwd.bufs.get? p.buf = some { b with copies := b.copies + 1 - 1 } ∧
          t.fwd.copies = s.fwd.copies.put out (s.fwd.copies.getD out [] ++ [⟨i, leg, p.buf, n, p.pw, mark, false, b.arrival⟩])) ∧
        (y.2 = none → t.fwd.copies = s.fwd.copies ∧ t.fwd.bufs.get? p.buf = some { b with copies := b.copies - 1 }) ∧
        t = { s with fwd := { s.fwd with walk := t.fwd.walk, subCache := t.fwd.subCache, bufs := t.fwd.bufs, copies := t.fwd.copies } })) ∧
    (∀ (c : Copy) (rest : List Copy), s.fwd.copies.getD lg [] = c :: rest →
      ((s.fwd.legStop.get? (lgKey lg c.leg)).isSome = true → Completes (.copyEnqueue lg) s (fun t =>
        t.fwd.copies.getD lg [] = rest ∧ t.fwd.legQ = s.fwd.legQ ∧ t.queues = s.queues ∧ keptBut s t [⟨.LNK_EGR_CNT, lg, 0⟩] ∧
        t.get F.LNK_EGR_CNT_stop_drop lg = min (2 ^ (F.LNK_EGR_CNT_stop_drop.hi + 1 - F.LNK_EGR_CNT_stop_drop.lo) - 1) (s.get F.LNK_EGR_CNT_stop_drop lg + 1))) ∧
      (∀ w3 w4 : Word, s.fwd.legStop.get? (lgKey lg c.leg) = none → s.fwd.legCfg.get? c.leg = some [w3, w4] →
        (max 1 (fld w3 23 16) ≤ (s.legQueue lg c.leg).length → Completes (.copyEnqueue lg) s (fun t =>
          t.fwd.copies.getD lg [] = rest ∧ t.fwd.legQ = s.fwd.legQ ∧ t.queues = s.queues ∧
          t.get F.LNK_EGR_CNT_q_drop lg = min (2 ^ (F.LNK_EGR_CNT_q_drop.hi + 1 - F.LNK_EGR_CNT_q_drop.lo) - 1) (s.get F.LNK_EGR_CNT_q_drop lg + 1))) ∧
        ((s.legQueue lg c.leg).length < max 1 (fld w3 23 16) → s.queuedAt lg < 65536 →
          (s.legQueue lg c.leg ≠ [] ∨ fld w3 15 0 = 0 ∨ s.upNs ≤ c.arrival + fld w3 15 0 * 1000) →
          Completes (.copyEnqueue lg) s (fun t => t.fwd.copies.getD lg [] = rest ∧ t.legQueue lg c.leg = s.legQueue lg c.leg ++ [c] ∧
            t.fwd = { s.fwd with copies := t.fwd.copies, legQ := t.fwd.legQ } ∧
            (fld w4 127 108 = noQueue → t = { s with fwd := t.fwd }) ∧ regsKept s t [.MEM_Q_CNT] ∧
            t = { s with regs := t.regs, fwd := t.fwd, queues := t.queues, mem := t.mem })))) ∧
    (∀ (pw w1 : Word) (ws : List Word) (u : State), s.flag F.LNK_LOCAL_QUEUE_en lg = true →
      s.popItem (s.get F.LNK_LOCAL_QUEUE_queue lg) = some (pw :: w1 :: ws, u) →
      (s.fwd.streamBlock.get? (lgKey lg (fld pw 63 44)) = none → Completes (.localPacketIntake lg) s (fun t =>
        t.fwd.walk.getD lg [] = s.fwd.walk.getD lg [] ++ [⟨fld pw 63 44, pw, fld w1 47 0⟩] ∧
        (∃ b : Buf, t.fwd.bufs.get? (fld w1 47 0) = some b ∧ b.len = fld pw 43 30 ∧ b.ret = some (fld w1 127 108) ∧ b.copies = 1) ∧ t.dram = s.dram)) ∧
      ((s.fwd.streamBlock.get? (lgKey lg (fld pw 63 44))).isSome = true → fld w1 127 108 = noQueue → Completes (.localPacketIntake lg) s (fun t =>
        t.fwd.walk = s.fwd.walk ∧ t.queues = u.queues ∧ t.dram = s.dram))) ∧
    (∀ (a : Nat) (b : Buf), s.fwd.bufs.get? a = some b →
      (b.hold = true → b.arrival + min 1000 (s.get F.LNK_EGR_CTRL_hold_ms b.lg) * 10 ^ 6 ≤ s.upNs → Completes (.bufferHoldExpiry a) s (fun t =>
        t = { s with fwd := { s.fwd with bufs := s.fwd.bufs.put a { b with hold := false } } })) ∧
      (b.hold = true → s.upNs < b.arrival + min 1000 (s.get F.LNK_EGR_CTRL_hold_ms b.lg) * 10 ^ 6 → Completes (.bufferHoldExpiry a) s (fun t => t = s)) ∧
      (b.copies = 0 → b.hold = false → b.prog = false → s.feedHolds a = false → b.ret = none → Completes (.bufferRelease a) s (fun t =>
        t = { s with fwd := { s.fwd with pool := s.fwd.pool.put b.lg (s.fwd.pool.getD b.lg [] ++ [a]), bufs := s.fwd.bufs.del a } })) ∧
      ((0 < b.copies ∨ b.hold = true ∨ b.prog = true ∨ s.feedHolds a = true) → Completes (.bufferRelease a) s (fun t => t = s))) ∧
    (∀ (w : Word) (ws : List Word) (u : State) (w3 w4 : Word), s.flag F.LNK_RTX_QUEUE_en lg = true →
      s.popItem (s.get F.LNK_RTX_QUEUE_queue lg) = some (w :: ws, u) → s.fwd.legCfg.get? (fld w 63 46) = some [w3, w4] → fld w 79 64 = 0 →
      let leg := fld w 63 46
      let ssrc := fld w 127 96
      let seq := fld w 95 80
      let item (r : Nat) : List Word := [BitVec.ofNat 128 (fld w 45 38 * 2 ^ 120 + leg * 2 ^ 102 + seq * 2 ^ 86 + r * 2 ^ 52)]
      ((s.fwd.legStop.get? (lgKey lg leg)).isSome = true → Completes (.retransmitRequest lg) s (fun t =>
        t = u.pushItem (.lg lg) (fld w 37 18) (item 3))) ∧
      (s.fwd.legStop.get? (lgKey lg leg) = none → u.queues.get? (fld w4 127 108) = none → Completes (.retransmitRequest lg) s (fun t =>
        t = u.pushItem (.lg lg) (fld w 37 18) (item 1))) ∧
      (∀ (h0 h1 : Word) (b : Buf), u.rtxRefused lg leg ssrc = false → u.findHistory lg leg ssrc (fun n => n == seq) = some [h0, h1] →
        s.fwd.bufs.get? (fld h1 47 0) = some b → (s.mtime + 2 ^ 64 - fld h0 127 64) % 2 ^ 64 < s.holdMs lg * 10 ^ 6 →
        (s.legQueue lg leg).length < max 1 (fld w3 23 16) → s.queuedAt lg < 65536 → s.legQueue lg leg ≠ [] →
        Completes (.retransmitRequest lg) s (fun t =>
          t.legQueue lg leg = s.legQueue lg leg ++ [⟨fld h1 127 104, leg, fld h1 47 0, seq, h0, bit h1 87, true, s.upNs⟩] ∧
          t.fwd.bufs.get? (fld h1 47 0) = some { b with copies := b.copies + 1 } ∧ t.dram = s.dram)))

/-- Codec cores take, pause and suspend jobs (05 R124, R126, R140, R144, R148; 06 R156, R157, R158): a core that is not free, or has no
job to choose, takes none; a chosen suspended job resumes; a head job leaves its queue, and one with a bad context ends with
result 0x08 in an item that carries its tag, while an op 1 job whose feed has items of a picture runs with them in sequence order; where
start_by has come, START_BY_EXPIRY takes the head job of its queue in the same way, and not before. At the end of a CTU row what the row cost is
charged, and a job whose account the core knows to be exhausted pauses: an encode job on one core is saved as suspended where a
place is free. A preempted encode is suspended; a gang is enabled only when it is legal. Completion is stated for JOB_TAKE, START_BY_EXPIRY,
CODEC_BUDGET_PAUSE, ENCODE_PREEMPT and GANG_ENABLE. -/
def Obligations.CodecCoresTakeAndPauseJobs : Prop :=
  ∀ (s : State) (n : Nat), n < 64 →
    (s.vccFree n = false ∨ s.chosen n = none → Completes (.jobTake n) s (fun t => t = s) ∧ ∀ k, Completes (.startByExpiry n k) s (fun t => t = s)) ∧
    (∀ j : Job, s.vccFree n = true → s.chosen n = some ⟨j, true⟩ → isEncode j.w0 = true → Completes (.jobTake n) s (fun t =>
      (t.vccOf n).cur = some j ∧ (t.vccOf n).susp = dropFirst (· == j) (s.vccOf n).susp ∧ (t.vccOf n).gang = none ∧
      keptBut s t [⟨.VCC_STATUS, n, 0⟩] ∧ t = { s with regs := t.regs, vcc := t.vcc })) ∧
    (∀ (j : Job) (i : List Word) (u : State), s.vccFree n = true → s.chosen n = some ⟨j, false⟩ → s.popItem j.queue = some (i, u) →
      isEncode j.w0 = false →
      let ends (t : State) : Prop := ∃ (v : State) (w0 w1 : Word), t = v.pushItem (.vcc n) (fld (v.word (j.ctx + 16)) 107 88) [w0, w1] ∧
        fld w0 63 56 = 8 ∧ fld w0 127 64 = s.mtime ∧ fld w1 31 0 = fld j.w1 31 0 ∧ v.queues = u.queues ∧ v.vcc = s.vcc ∧
        ((s.acct j.account).metered = false → v.dram = s.dram ∧ v.regs = s.regs)
      let starts (t : State) : Prop := ∀ (q : Nat) (a : Queue) (stale : Bool), s.feedOf j.ctx = some (q, a, stale) →
        (s.feedScan (s.word (j.ctx + 32)) a).picture ≠ [] → (s.acct j.account).metered = false → ∃ k : Job, (t.vccOf n).cur = some k ∧
          k.w0 = j.w0 ∧ k.w1 = j.w1 ∧ k.items = s.sortItems (s.word (j.ctx + 32)) (s.feedScan (s.word (j.ctx + 32)) a).picture ∧
          k.late = (s.feedScan (s.word (j.ctx + 32)) a).late ∧ k.paused = false
      (s.badDecode j = true → Completes (.jobTake n) s ends) ∧
      (j.op = 1 → s.badDecode j = false → s.jobUndefined n ⟨j, false⟩ = none → Completes (.jobTake n) s starts) ∧
      (∀ k, s.flag F.VCC_JOBQ_en n k = true → s.get F.VCC_JOBQ_queue n k = j.queue → j.op = 1 →
        (s.reached (fld j.w1 127 64) = true → s.badDecode j = true → Completes (.startByExpiry n k) s ends) ∧
        (s.reached (fld j.w1 127 64) = true → s.badDecode j = false → s.jobUndefined n ⟨j, false⟩ = none → Completes (.startByExpiry n k) s starts) ∧
        (s.reached (fld j.w1 127 64) = false → Completes (.startByExpiry n k) s (fun t => t = s)))) ∧
    (∀ j : Job, (s.vccOf n).cur = some j →
      (j.paused = false → Completes (.codecBudgetPause n) s (fun t => ∃ sp, j.spent ≤ sp ∧
        (let out := t.knowsOut (.vcc n) j.account
         let k : Job := { j with spent := sp, paused := out }
         (out = true → isEncode j.w0 = true → j.gang = none → (s.vccOf n).susp.length < 2 →
          (t.vccOf n).cur = none ∧ (t.vccOf n).susp = (s.vccOf n).susp ++ [k]) ∧
         ((out = false ∨ isEncode j.w0 = false ∨ j.gang ≠ none ∨ 2 ≤ (s.vccOf n).susp.length) →
          (t.vccOf n).cur = some k ∧ (t.vccOf n).susp = (s.vccOf n).susp) ∧
         (((s.dis.heard.find? (fun e => e.1 == Agent.vcc n)).map (·.2)).getD 0 ≤ s.dis.news.length → out = s.knowsOut (.vcc n) j.account)) ∧
        t = { s with regs := t.regs, dram := t.dram, dis := t.dis, sys := t.sys, vcc := t.vcc, free := t.free })) ∧
      (j.paused = true → Completes (.codecBudgetPause n) s (fun t => t = s)) ∧
      (isEncode j.w0 = true → j.gang = none → j.paused = false → (s.vccOf n).susp.length < 2 → s.preempts n j = true →
        Completes (.encodePreempt n) s (fun t => (∃ sp, j.spent ≤ sp ∧ (t.vccOf n).susp = (s.vccOf n).susp ++ [{ j with spent := sp }]) ∧
          (t.vccOf n).cur = none ∧ t = { s with regs := t.regs, dram := t.dram, dis := t.dis, sys := t.sys, vcc := t.vcc, free := t.free })) ∧
      (isEncode j.w0 = false ∨ s.preempts n j = false → Completes (.encodePreempt n) s (fun t => t = s))) ∧
    (∀ (m : Master) (g : Nat) (v : Reg64), g < 16 → s.admits m →
      let size := max 2 (fld v 50 48 + 1)
      let mem : List Nat := (List.range size).map (fun i => fld v (6 * i + 5) (6 * i))
      (s.gangLegal g mem = true → Completes (.gangEnable m g v) s (fun t => t.flag F.VCC_GANG_en 0 g = true ∧
        t.get F.VCC_GANG_refused 0 g = 0 ∧ t.gangMembers g = mem ∧ onlyRegs s t ∧ keptBut s t [⟨.VCC_GANG, 0, g⟩])) ∧
      (s.gangLegal g mem = false → Completes (.gangEnable m g v) s (fun t => t.flag F.VCC_GANG_en 0 g = false ∧
        t.get F.VCC_GANG_refused 0 g = 1 ∧ onlyRegs s t ∧ keptBut s t [⟨.VCC_GANG, 0, g⟩])))

/-- The end of a codec job (05 R119, R128, R131, R132, R147; 06 R155, R170, R171, R172): a decode whose data is left out whole, whose result is
not 0x00, or whose findings agree with the rules frees its core and counts a picture, as an encode does whose packets are all out and
whose findings agree with the rules; a result other than 0x00 and 0x05 stands in a status item that carries the job's tag and
writes no slot; a packet that the rules allow fills a buffer of buf_q and is counted, or waits for one, and no other packet is sent before
it; with no job none of these does anything. Completion is stated for DECODE_COMPLETE, ENCODE_PACKET_OUT and ENCODE_COMPLETE. -/
def Obligations.PicturesEndWithTheirItems : Prop :=
  ∀ (s : State) (n : Nat), n < 64 →
    let counted (t : State) : Prop := (t.vccOf n).cur = none ∧
      t.get F.VCC_CNT_pictures n = (s.get F.VCC_CNT_pictures n + 1) % 2 ^ (F.VCC_CNT_pictures.hi + 1 - F.VCC_CNT_pictures.lo) ∧
      t.pending = s.pending ∧ t.flash = s.flash ∧ t.mtb = s.mtb ∧ t.ports = s.ports
    (∀ j : Job, (s.vccOf n).cur = some j → j.paused = false →
      (isEncode j.w0 = false → ∀ f : DecodeFacts,
        (s.keptOf j = none → Completes (.decodeComplete n f) s counted) ∧
        (∀ k : KeptPicture, s.keptOf j = some k →
          (s.decodeResult j k f ≠ 0 ∨ findingsFit (fld (s.word j.ctx) 127 124) j (s.refsOf j.ctx) f = true → Completes (.decodeComplete n f) s counted) ∧
          (s.decodeResult j k f ≠ 0 → s.decodeResult j k f ≠ 5 → s.memOk → Completes (.decodeComplete n f) s (fun t =>
            ∃ (v : State) (w0 w1 : Word), t = (v.pushItem (.vcc n) (fld (v.word (j.ctx + 16)) 107 88) [w0, w1]).freeCore n j ∧
              fld w0 63 56 = s.decodeResult j k f ∧ bit w0 55 = false ∧ fld w0 127 64 = s.mtime ∧ fld w1 31 0 = fld j.w1 31 0 ∧
              fld w1 95 82 = f.width % 2 ^ 14 ∧ fld w1 81 68 = f.height % 2 ^ 14 ∧
              ((s.acct j.account).metered = false → v.word j.ctx = s.word j.ctx ∧ v.word (j.ctx + 16) = s.word (j.ctx + 16) ∧
                fld (v.word (j.ctx + 32)) 127 64 = fld (s.word (j.ctx + 32)) 127 64))))) ∧
      (isEncode j.w0 = true → ∀ f : EncodeFacts, j.waiting = none → encodings (s.word j.ctx) ≤ j.enc →
        (let runs := layerRuns (s.word j.ctx) (s.word (j.ctx + 32)) j (s.word (privWord j.ctx)) f
         encodeFits (s.word j.ctx) (s.word (j.ctx + 32)) j (s.crew n) runs (s.readAllRefs n j runs).1 f = true →
         Completes (.encodeComplete n f) s counted)) ∧
      (isEncode j.w0 = true → ∀ f : EncodeFacts, j.waiting ≠ none ∨ j.enc < encodings (s.word j.ctx) → Completes (.encodeComplete n f) s (fun t => t = s)) ∧
      (isEncode j.w0 = true → ∀ p : EncPacket, packetFits (s.word j.ctx) j p = true →
        (s.encodedPacket j p).length ≤ clampNat (fld (s.word (j.ctx + 16 * (5 + p.enc))) 80 70) 256 1536 →
        ((j.waiting = none ∨ j.waiting = some p) →
          (s.popItem (fld (s.word (j.ctx + 16)) 87 68) = none → Completes (.encodePacketOut n p) s (fun t =>
            (t.vccOf n).cur = some { j with bufWait := true, waiting := some p } ∧ keptBut s t [⟨.VCC_STATUS, n, 0⟩] ∧
            t = { s with regs := t.regs, vcc := t.vcc })) ∧
          (∀ (i : List Word) (u : State), s.popItem (fld (s.word (j.ctx + 16)) 87 68) = some (i, u) → Completes (.encodePacketOut n p) s (fun t =>
            (t.vccOf n).cur = some (afterPacket (s.word j.ctx) j p) ∧ t.pending = s.pending ∧ t.ports = s.ports ∧ t.mtb = s.mtb))) ∧
        (∀ p' : EncPacket, j.waiting = some p' → p' ≠ p → Completes (.encodePacketOut n p) s (fun t => t = s)))) ∧
    ((s.vccOf n).cur = none → (∀ f, Completes (.decodeComplete n f) s (fun t => t = s)) ∧
      (∀ f, Completes (.encodeComplete n f) s (fun t => t = s)) ∧ (∀ p, Completes (.encodePacketOut n p) s (fun t => t = s)))

/-- The decision of 06 R164 at the start of an encode job, from the context's words 0 and 3 and the kinds of the items read: when a
key picture is made and what it clears; when a sweep starts, of which length, and how it advances; since_key saturates at 255. -/
def Obligations.EncoderDecidesByItsRequests : Prop :=
  ∀ (c0 w3 : Word) (force first failed : Bool) (kinds : List Bool),
    let n := fld c0 85 78
    let must : Prop := first = true ∨ bit w3 37 = true ∨ failed = true
    let want : Prop := force = true ∨ bit w3 39 = true ∨ must ∨ false ∈ kinds ∨ (n = 0 ∧ true ∈ kinds)
    let makes : Prop := want ∧ (must ∨ force = true ∨ fld c0 76 69 ≤ fld w3 36 29)
    let d := decideEncode c0 w3 force first failed kinds
    let deferred : Prop := bit w3 38 = true ∨ (¬ want ∧ n ≠ 0 ∧ true ∈ kinds)
    let free : Prop := bit w3 26 = false ∨ fld w3 55 48 = fld w3 47 40
    (d.key = true ↔ makes) ∧
    (makes → d.tpos = 0 ∧ d.sweepStart = false ∧ fld d.w3 36 29 = 0 ∧ bit d.w3 39 = false ∧ bit d.w3 38 = false ∧ fld d.w3 47 40 = 0 ∧ fld d.w3 28 27 = 0) ∧
    (¬ makes → fld d.w3 36 29 = min 255 (fld w3 36 29 + 1) ∧ d.tpos = fld w3 28 27 ∧ (want → bit d.w3 39 = true) ∧
      ((fld w3 28 27 ≠ 0 ∨ n = 0) → d.sweepStart = false ∧ fld d.w3 47 40 = fld w3 47 40 ∧ fld d.w3 55 48 = fld w3 55 48) ∧
      (fld w3 28 27 = 0 → n ≠ 0 → deferred → free → d.sweepStart = true ∧ fld d.w3 47 40 = (n + 3) / 4 ∧ bit d.w3 26 = true ∧
        fld d.w3 55 48 = 1 ∧ bit d.w3 38 = false) ∧
      (fld w3 28 27 = 0 → n ≠ 0 → ¬ (deferred ∧ free) → (fld w3 47 40 = 0 ∨ fld w3 55 48 = fld w3 47 40) →
        d.sweepStart = true ∧ fld d.w3 47 40 = n ∧ bit d.w3 26 = false ∧ fld d.w3 55 48 = 1) ∧
      (fld w3 28 27 = 0 → n ≠ 0 → ¬ (deferred ∧ free) → fld w3 47 40 ≠ 0 → fld w3 55 48 < fld w3 47 40 →
        d.sweepStart = false ∧ fld d.w3 47 40 = fld w3 47 40 ∧ fld d.w3 55 48 = fld w3 55 48 + 1))

/-- Canvases (07 R180, R181, R183, R184, R188, R195, R196): a commit request is kept with its time until a latch; a write of an inset's
shadow register marks the inset dirty; a latch point that is not due does nothing, the latch of a running canvas with no frame
under way and nothing requested brings the next frame into composition under its number, and one that a request made before it starts a valid
canvas at frame 0 with the fields of its shadow registers; at its deadline the frame is abandoned and counted, and the one behind it
follows; a frame composed in its time takes the next ring slot; nothing happens while its raster has no boundaries. Completion is
stated for COMMIT_REQUEST, INSET_SHADOW_WRITE, LATCH_POINT, FRAME_COMPOSED and FRAME_DEADLINE_MISS. -/
def Obligations.CanvasesLatchAndComplete : Prop :=
  ∀ (s : State) (m c : Nat), m < 4 → c < 1024 →
    (∀ (w : Master) (v : Reg64), s.admits w → fld v 9 0 = c → Completes (.commitRequest w m v) s (fun t =>
      t.canvas m c = { s.canvas m c with requests := (s.canvas m c).requests ++ [s.nanos] } ∧ t = { s with bus := ⟨0, 0⟩, cmp := t.cmp } ∧ t.cmp.insets = s.cmp.insets)) ∧
    (∀ (w : Master) (i which : Nat) (v : Reg64), s.admits w → i < 64 → which < 7 → Completes (.insetShadowWrite w m c i which v) s (fun t =>
        t.reg (insetReg which) m (64 * c + i) = codedWrite (insetReg which).info (s.reg (insetReg which) m (64 * c + i)) v ∧
        t.insetOf m c i = { s.insetOf m c i with dirty := true } ∧ keptBut s t [⟨insetReg which, m, 64 * c + i⟩] ∧
        t = { s with regs := t.regs, bus := ⟨0, 0⟩, cmp := t.cmp } ∧ t.cmp.canvases = s.cmp.canvases)) ∧
    (let lead := clampNat (s.get F.CMP_CTRL_latch_ns m) 2000 50000
     let soon := s.nanos + lead
     (s.composerRuns m = false ∨ ((s.canvas m c).running = false ∧ (s.canvas m c).requests = []) → Completes (.latchPoint m c) s (fun t => t = s)) ∧
     (s.composerRuns m = true → (∀ i, i < 64 → (s.insetOf m c i).pend = none) →
       (∀ r : Nat × Nat × Nat, (s.canvas m c).running = true → s.canRaster (s.canvas m c).active = some r → r.2.2 ≤ soon * r.1 →
         let b := boundaries r soon
         ((s.canvas m c).lastBn = some b.1 → Completes (.latchPoint m c) s (fun t => t = s)) ∧
         ((s.canvas m c).lastBn ≠ some b.1 → (s.canvas m c).requests = [] → (s.canvas m c).comp = none → Completes (.latchPoint m c) s (fun t => ∃ f : CanFrame,
           t.canvas m c = { s.canvas m c with comp := some f, lastBn := some b.1, frame := (s.canvas m c).frame + 1, owed := [] } ∧
           f.bn = b.1 ∧ f.due = b.2 ∧ f.number = (s.canvas m c).frame ∧ f.commit = false ∧ f.fields = (s.canvas m c).active ∧
           f.shown = s.shownInsets m c ∧ f.releases = (s.canvas m c).owed ∧ t = { s with cmp := t.cmp } ∧ t.cmp.insets = s.cmp.insets))) ∧
       (∀ r : Nat × Nat × Nat, (s.canvas m c).running = false → s.canRaster (s.canShadow m c) = some r → r.2.2 ≤ soon * r.1 →
         let b := boundaries r soon
         ((∀ q ∈ (s.canvas m c).requests, b.1 - lead ≤ q) → Completes (.latchPoint m c) s (fun t => t = s)) ∧
         ((s.canvas m c).lastBn ≠ some b.1 → (∃ q ∈ (s.canvas m c).requests, q < b.1 - lead) → (s.canvas m c).comp = none →
           s.canvasValid (s.canShadow m c) = true → s.flag F.CMP_CAN_CTRL_en m c = true → (∀ i, i < 64 → (s.insetOf m c i).dirty = false) →
           Completes (.latchPoint m c) s (fun t => ∃ f : CanFrame,
             t.canvas m c = { s.canvas m c with active := s.canShadow m c, running := true, comp := some f, lastBn := some b.1, frame := 1, requests := (s.canvas m c).requests.filter (fun q => decide (b.1 - lead ≤ q)), last := none, owed := [] } ∧
             f.bn = b.1 ∧ f.number = 0 ∧ f.commit = true ∧ f.err = false ∧ f.fields = s.canShadow m c ∧
             t = { s with cmp := t.cmp } ∧ t.cmp.insets = s.cmp.insets))))) ∧
    (∀ f : CanFrame, (s.canvas m c).comp = some f →
      (let behind : Canvas := { s.canvas m c with comp := (s.canvas m c).next.head?, next := (s.canvas m c).next.drop 1 }
       (f.due ≤ s.nanos → (s.canRaster f.fields).isSome = true → Completes (.frameDeadlineMiss m c) s (fun t =>
        t.canvas m c = { behind with carry := (s.canvas m c).carry ++ f.releases } ∧ t.cmp.insets = s.cmp.insets ∧ t.pending = s.pending ∧
        t.get F.CMP_CNT_late m = min (2 ^ (F.CMP_CNT_late.hi + 1 - F.CMP_CNT_late.lo) - 1) (s.get F.CMP_CNT_late m + 1) ∧
        ((s.acct (fld (nth f.fields 0) 47 36)).metered = false → t.dram = s.dram))) ∧
       (s.nanos < f.due ∨ s.canRaster f.fields = none → Completes (.frameDeadlineMiss m c) s (fun t => t = s)) ∧
       (s.nanos < f.bn ∨ s.canRaster f.fields = none → Completes (.frameComposed m c) s (fun t => t = s)) ∧
       (let ring := if (s.canvas m c).last.isSome then ((s.canvas m c).slot + 1) % ringSlots f.fields else 0
        f.bn ≤ s.nanos → s.nanos < f.due → (s.canRaster f.fields).isSome = true → Completes (.frameComposed m c) s (fun t =>
         t.canvas m c = { behind with carry := [], last := some f.fields, slot := ring } ∧
         t.get F.CMP_CNT_crc_fail m = min (2 ^ (F.CMP_CNT_crc_fail.hi + 1 - F.CMP_CNT_crc_fail.lo) - 1) (s.get F.CMP_CNT_crc_fail m + (f.enabled.flatMap (fun r => s.srcFails (pipeSrc r))).length) ∧
         t.cmp.insets = s.cmp.insets ∧ t.pending = s.pending))))

/-- Output blocks and network flows (08 R207, R210, R216, R217, R220, R221, R224): before anything else a port is brought up to the
present, its samples taken and its frames sent; then a latch acts once a boundary: an unrouted port, and one of a node that
drains or is halted, plays silence; a locked port takes the item of its block, or counts an underrun where the head is later or
absent, which an unlocked port does not count; a flow latches the same way; a block whose millisecond has passed leaves a port that is not
stopping, and its buffer is returned; a flow hands one packet after another, numbering them. Completion is stated for OUTPUT_LATCH,
OUTPUT_BUFFER_RETURN, FLOW_LATCH and FLOW_PACKET_HANDOFF. -/
def Obligations.AudioOutputsTakeTheirBlocks : Prop :=
  ∀ (s : State) (n p : Nat), n < 2 → p < 8 →
    let b := s.latchBlock
    let x := s.audPort n p
    let q := fld (s.routeFor n p b) 63 44
    let now := s.takeSamples n p
    let y := now.audPort n p
    let plays (t : State) (item : Option (Word × Word)) (bad : List Nat) : Prop :=
      t.audPort n p = { y with latched := some b, play := y.play ++ [⟨b, item, bad, 0⟩] } ∧ t.out = now.out
    (x.latched = some b → Completes (.outputLatch n p) s (fun t => t = now)) ∧
    (x.latched ≠ some b → s.audSilent n = true → s.flag F.AUD_PORT_CFG_en n p = true → Completes (.outputLatch n p) s (fun t =>
      plays t none [] ∧ t = { now with aud := t.aud } ∧ t.aud.flows = s.aud.flows)) ∧
    (x.latched ≠ some b → s.audActive n p b = true → q = noQueue → Completes (.outputLatch n p) s (fun t =>
      plays t none [] ∧ t = { now with aud := t.aud } ∧ t.aud.flows = s.aud.flows)) ∧
    (x.latched ≠ some b → s.audActive n p b = true → q ≠ noQueue →
      (s.flag F.AUD_PORT_STAT_locked n p = true →
        let under (t : State) : Prop := plays t none [] ∧ t.queues = s.queues ∧ keptBut s t [⟨.AUD_PORT_CNT, n, p⟩] ∧
          t.get F.AUD_PORT_CNT_underrun n p = min (2 ^ (F.AUD_PORT_CNT_underrun.hi + 1 - F.AUD_PORT_CNT_underrun.lo) - 1) (s.get F.AUD_PORT_CNT_underrun n p + 1)
        (∀ (w0 w1 : Word) (ws : List Word) (u : State), s.popItem q = some (w0 :: w1 :: ws, u) →
          (itemBlock w0 = b → Completes (.outputLatch n p) s (fun t => ∃ bad : List Nat, plays t (some (w0, w1)) bad ∧ t.queues = u.queues ∧ t.dram = s.dram)) ∧
          (b < itemBlock w0 → Completes (.outputLatch n p) s under)) ∧
        (s.queues.get? q = none → Completes (.outputLatch n p) s under)) ∧
      (s.flag F.AUD_PORT_STAT_locked n p = false → s.queues.get? q = none → Completes (.outputLatch n p) s (fun t =>
        plays t none [] ∧ t = { now with aud := t.aud }))) ∧
    (∀ (k : PlayBlock) (rest : List PlayBlock), x.play = k :: rest → x.stopAt = none →
      (k.b + 10 ^ 6 ≤ s.mtime → Completes (.outputBufferReturn n p) s (fun t =>
        t.audPort n p = { y with play := y.play.tail } ∧ t.out = now.out ∧ (t.audPort n p).play.length = rest.length ∧
        (k.item = none → t = { now with aud := t.aud }) ∧
        (∀ w0 w1 : Word, k.item = some (w0, w1) → ∃ v : State, t = v.returnItem n w0 w1 ∧ v.queues = s.queues ∧
          ((s.acct (s.get F.AUD_CTRL_account n)).metered = false → v.dram = s.dram)))) ∧
      (s.mtime < k.b + 10 ^ 6 → Completes (.outputBufferReturn n p) s (fun t => t = now))) ∧
    (x.play = [] → Completes (.outputBufferReturn n p) s (fun t => t = now)) ∧
    (∀ f, f < 16 → s.audRuns n = true → s.flag F.AUD_NET_CFG_en n f = true → (s.audFlow n f).latched ≠ some b →
      (s.queues.get? (s.get F.AUD_NET_CFG_queue n f) = none → Completes (.flowLatch n f) s (fun t =>
        (t.audFlow n f) = { s.audFlow n f with latched := some b } ∧
        t.get F.AUD_NET_CNT_underrun n f = min (2 ^ (F.AUD_NET_CNT_underrun.hi + 1 - F.AUD_NET_CNT_underrun.lo) - 1) (s.get F.AUD_NET_CNT_underrun n f + 1) ∧
        keptBut s t [⟨.AUD_NET_CNT, n, f⟩] ∧ t = { s with regs := t.regs, aud := t.aud })) ∧
      (∀ (w0 w1 : Word) (ws : List Word) (u : State), s.popItem (s.get F.AUD_NET_CFG_queue n f) = some (w0 :: w1 :: ws, u) → itemBlock w0 = b →
        Completes (.flowLatch n f) s (fun t => ∃ bad : List Nat, t.audFlow n f = { latched := some b, blocks := (s.audFlow n f).blocks ++ [⟨b, w0, w1, bad, 0⟩] } ∧
          t.queues = u.queues ∧ t.dram = s.dram))) ∧
    (∀ (f : Nat) (k : FlowBlock) (rest : List FlowBlock), f < 16 → (s.audFlow n f).blocks = k :: rest →
      let m := s.flowPackets n f
      (s.mtime < k.b + k.j * (10 ^ 6 / m) → Completes (.flowPacketHandoff n f) s (fun t => t = s)) ∧
      (k.b + k.j * (10 ^ 6 / m) ≤ s.mtime → Completes (.flowPacketHandoff n f) s (fun t =>
        (t.audFlow n f).blocks = (if m ≤ k.j + 1 then rest else { k with j := k.j + 1 } :: rest) ∧
        t.get F.AUD_NET_ID_seq n f = (s.get F.AUD_NET_ID_seq n f + 1) % 2 ^ (F.AUD_NET_ID_seq.hi + 1 - F.AUD_NET_ID_seq.lo) ∧ t.aud.ports = s.aud.ports)))

/-- Input blocks, locks and channel status (08 R209, R211, R212, R215, R219): a block begins once at a boundary with a free buffer, or
counts an overrun; a block whose millisecond has passed is pushed with its boundary and address, marked as not valid where a sample is not,
as every sample of one that was not locked throughout is; a tracked port is locked within the band and not outside it, shows its ratio, and a
block in capture as the lock is lost is not valid; an aligned one is not unlocked by a loss; a received status block with a good CRCC fills
AUD_CS_RX. Completion is stated for INPUT_BLOCK_BOUNDARY, INPUT_BLOCK_PUSH, PORT_LOCK, PORT_UNLOCK and CS_BLOCK_RECEIVE. -/
def Obligations.AudioInputsCaptureAndLock : Prop :=
  ∀ (s : State) (n p : Nat), n < 2 → p < 8 →
    let x := s.audPort n p
    let b := blockAt s.mtime
    (x.inAt = some b → Completes (.inputBlockBoundary n p) s (fun t => t = s)) ∧
    (s.audActive n p b = true → x.inAt ≠ some b →
      (fld (s.routeFor n p b) 43 24 = noQueue → Completes (.inputBlockBoundary n p) s (fun t =>
        t.audPort n p = { x with inAt := some b } ∧ t = { s with aud := t.aud })) ∧
      (fld (s.routeFor n p b) 43 24 ≠ noQueue →
        (∀ (w : Word) (ws : List Word) (u : State), s.popItem (fld (s.routeFor n p b) 23 4) = some (w :: ws, u) → Completes (.inputBlockBoundary n p) s (fun t =>
          t.audPort n p = { x with inAt := some b, capture := x.capture ++ [⟨b, fld w 47 0, fld (s.routeFor n p b) 43 24, s.flag F.AUD_PORT_STAT_locked n p⟩] } ∧
          t = { u with aud := t.aud })) ∧
        (s.queues.get? (fld (s.routeFor n p b) 23 4) = none → Completes (.inputBlockBoundary n p) s (fun t =>
          t.audPort n p = { x with inAt := some b } ∧ keptBut s t [⟨.AUD_PORT_CNT, n, p⟩] ∧
          t.get F.AUD_PORT_CNT_overrun n p = min (2 ^ (F.AUD_PORT_CNT_overrun.hi + 1 - F.AUD_PORT_CNT_overrun.lo) - 1) (s.get F.AUD_PORT_CNT_overrun n p + 1))))) ∧
    (∀ (c : Capture) (rest : List Capture) (samples : List PortSample), x.capture = c :: rest →
      (s.mtime < c.b + 10 ^ 6 → Completes (.inputBlockPush n p samples) s (fun t => t = s)) ∧
      (c.b + 10 ^ 6 ≤ s.mtime → Completes (.inputBlockPush n p samples) s (fun t => ∃ (v : State) (w0 w1 : Word),
        t = v.pushItem (.aud n) c.queue [w0, w1] ∧ v.queues = s.queues ∧ v.audPort n p = { x with capture := rest } ∧ v.out = s.out ∧
        (c.addr < 2 ^ 48 → fld w0 127 64 = c.b % 2 ^ 64 ∧ fld w0 63 58 = s.audChannels n p - 1 ∧ fld w0 47 0 = c.addr ∧ fld w0 55 48 = 8 * n + p ∧
          bit w0 57 = (s.captured n p c samples).any (fun e => !bit e 7) ∧ bit w0 56 = (s.captured n p c samples).any (fun e => bit e 4) ∧
          (c.valid = false → bit w0 57 = true))))) ∧
    (∀ ratio : Nat, ratio < 2 ^ (F.AUD_PORT_RATIO_ratio.hi + 1 - F.AUD_PORT_RATIO_ratio.lo) →
      let lost (t : State) : Prop := s.flag F.AUD_PORT_STAT_locked n p = true → ∀ c ∈ (t.audPort n p).capture, s.mtime < c.b + 10 ^ 6 → c.valid = false
      (s.audActive n p b = true → s.aligned n p = false → Completes (.portLock n p ratio) s (fun t =>
        let in_ := ratioInBand (s.get F.AUD_PORT_CFG_rate n p) ratio
        t.get F.AUD_PORT_RATIO_ratio n p = ratio ∧ t.flag F.AUD_PORT_STAT_locked n p = in_ ∧
        (s.flag F.AUD_PORT_STAT_locked n p ≠ in_ → t.get F.AUD_PORT_STAT_lock_evt n p = 1) ∧
        (s.flag F.AUD_PORT_STAT_locked n p = in_ → keptBut s t [⟨.AUD_PORT_RATIO, n, p⟩, ⟨.AUD_PORT_CNT, n, p⟩]) ∧ (in_ = false → lost t) ∧
        t = { s with regs := t.regs, log := t.log, aud := t.aud, out := t.out })) ∧
      (s.audActive n p b = false → Completes (.portLock n p ratio) s (fun t => t = s)) ∧
      (s.aligned n p = false → Completes (.portUnlock n p ratio) s (fun t => t.get F.AUD_PORT_RATIO_ratio n p = ratio ∧
        t.flag F.AUD_PORT_STAT_locked n p = false ∧ (s.flag F.AUD_PORT_STAT_locked n p = true → t.get F.AUD_PORT_STAT_lock_evt n p = 1) ∧ lost t ∧
        t = { s with regs := t.regs, log := t.log, aud := t.aud, out := t.out })) ∧
      (s.aligned n p = true → Completes (.portLock n p ratio) s (fun t => t = s) ∧ Completes (.portUnlock n p ratio) s (fun t => t = s))) ∧
    (∀ c0 c1 : List Byte, (s.audActive n p b = true → s.get F.AUD_PORT_CFG_mode n p = 2 →
        (∀ c ∈ [c0, c1], bAt c 0 % 2 = 1 → crcc (c.take 23) = bAt c 23) → Completes (.csBlockReceive n p c0 c1) s (fun t =>
          (∀ k, k < 3 → t.reg .AUD_CS_RX n (6 * p + k) = BitVec.ofNat 64 (leNat (slice c0 (8 * k) 8)) ∧
            t.reg .AUD_CS_RX n (6 * p + 3 + k) = BitVec.ofNat 64 (leNat (slice c1 (8 * k) 8))) ∧
          t.get F.AUD_PORT_STAT_cs_new n p = 1 ∧ regsKept s t [.AUD_CS_RX, .AUD_PORT_STAT] ∧ t = { s with regs := t.regs })) ∧
      (s.get F.AUD_PORT_CFG_mode n p ≠ 2 → Completes (.csBlockReceive n p c0 c1) s (fun t => t = s)))

/-- The audio registers (08 R208, R210, R213, R220): a port is enabled as written, or refused with cfg_err where R210 forbids it, and
stops at the next block boundary; an aligned port of an enabled node that is not drained or halted is locked from its enabling to its
stop; a route holds from that boundary on, a mask at the next frame sync; a flow of more than 8 channels at 1 ms is not enabled. Completion
is stated for AUDIO_PORT_ENABLE, AUDIO_PORT_STOP, ROUTE_WRITE, MASK_WRITE and FLOW_ENABLE. -/
def Obligations.AudioRegistersTakeEffect : Prop :=
  ∀ (s : State) (m : Master) (n p : Nat) (v : Reg64), n < 2 → p < 8 → s.admits m →
    let on := v ||| 0x8000000000000000
    let off := v &&& 0x7FFFFFFFFFFFFFFF
    (s.flag F.AUD_PORT_CFG_en n p = false → audCfgRefused on = false → Completes (.audioPortEnable m n p v) s (fun t =>
      t.reg .AUD_PORT_CFG n p = codedWrite RegName.AUD_PORT_CFG.info (s.reg .AUD_PORT_CFG n p) on ∧ t.flag F.AUD_PORT_CFG_en n p = true ∧
      (t.audPort n p).stopAt = none ∧ (t.audPort n p).csAt = 0 ∧
      (s.get F.AUD_CTRL_en n = 1 → s.get F.AUD_STATUS_state n ≤ 1 → fld v 60 59 = 0 → t.flag F.AUD_PORT_STAT_locked n p = true) ∧
      regsKept s t [.AUD_PORT_CFG, .AUD_PORT_STAT, .AUD_PORT_CNT, .AUD_PORT_RATIO, .LOG_CNT, .LOG_STATUS] ∧
      t = { s with regs := t.regs, log := t.log, aud := t.aud, out := t.out, bus := ⟨0, 0⟩ })) ∧
    (s.flag F.AUD_PORT_CFG_en n p = false → audCfgRefused on = true → Completes (.audioPortEnable m n p v) s (fun t =>
      t.flag F.AUD_PORT_CFG_en n p = false ∧ t.get F.AUD_PORT_STAT_cfg_err n p = 1 ∧ onlyRegs s t ∧
      keptBut s t [⟨.AUD_PORT_CFG, n, p⟩, ⟨.AUD_PORT_STAT, n, p⟩])) ∧
    (s.flag F.AUD_PORT_CFG_en n p = true → putFld (codedWrite RegName.AUD_PORT_CFG.info (s.reg .AUD_PORT_CFG n p) off) 63 63 1 = s.reg .AUD_PORT_CFG n p →
      Completes (.audioPortStop m n p v) s (fun t => t.flag F.AUD_PORT_CFG_en n p = false ∧
        (t.audPort n p).stopAt = some (blockAt s.mtime + 10 ^ 6) ∧ (t.audPort n p).play.length = (s.audPort n p).play.length ∧
        (s.aligned n p = true → t.flag F.AUD_PORT_STAT_locked n p = false) ∧
        regsKept s t [.AUD_PORT_CFG, .AUD_PORT_STAT, .AUD_PORT_CNT, .LOG_CNT, .LOG_STATUS] ∧
        t = { s with regs := t.regs, log := t.log, aud := t.aud, out := t.out, bus := ⟨0, 0⟩ })) ∧
    Completes (.routeWrite m n p v) s (fun t =>
      (∀ b, b < blockAt s.mtime + 10 ^ 6 → t.routeFor n p b = s.routeFor n p (blockAt s.mtime)) ∧
      (∀ b, blockAt s.mtime + 10 ^ 6 ≤ b → t.routeFor n p b = codedWrite RegName.AUD_PORT_ROUTE.info (s.reg .AUD_PORT_ROUTE n p) v) ∧
      keptBut s t [⟨.AUD_PORT_ROUTE, n, p⟩] ∧ t = { s with regs := t.regs, aud := t.aud, bus := ⟨0, 0⟩ }) ∧
    Completes (.maskWrite m n p v) s (fun t => t.reg .AUD_PORT_MASK n p = v ∧ (∀ at_, s.mtime < at_ → t.maskAt n p at_ = v) ∧
      keptBut s t [⟨.AUD_PORT_MASK, n, p⟩, ⟨.AUD_PORT_CNT, n, p⟩] ∧ t = { s with regs := t.regs, aud := t.aud, out := t.out, bus := ⟨0, 0⟩ }) ∧
    (∀ f, f < 16 → s.flag F.AUD_NET_CFG_en n f = false →
      ((bit v 49 = true ∨ fld v 48 43 < 8) → Completes (.flowEnable m n f v) s (fun t => t.flag F.AUD_NET_CFG_en n f = true ∧
        t.reg .AUD_NET_CFG n f = codedWrite RegName.AUD_NET_CFG.info (s.reg .AUD_NET_CFG n f) on ∧ onlyRegs s t ∧ keptBut s t [⟨.AUD_NET_CFG, n, f⟩])) ∧
      (bit v 49 = false → 8 ≤ fld v 48 43 → Completes (.flowEnable m n f v) s (fun t => t.flag F.AUD_NET_CFG_en n f = false ∧
        t.get F.AUD_NET_CNT_refused n f = 1 ∧ onlyRegs s t ∧ keptBut s t [⟨.AUD_NET_CFG, n, f⟩, ⟨.AUD_NET_CNT, n, f⟩])))

/-- The accumulators (09 R241): a product below 2^(B-1) in size updates a lane as the pseudocode says; a pair holds its 80 bits in its
two lanes, with ledger and lost flag in the upper one, zero in the lower; after any such products from a cleared lane, while lost
is 0, v + ledger * 2^B is their exact sum. So a saturating store of an allowed shift (R242) gives that sum rounded half up and
clamped to its width. -/
def Obligations.AccumulatorsKeepTheExactSum : Prop :=
  (∀ (b : Nat) (l : Lane) (p : Int), (b = 40 ∨ b = 80) → -(2 ^ (b - 1) : Int) < p → p < 2 ^ (b - 1) → -(2 ^ (b - 1) : Int) ≤ l.v → l.v < 2 ^ (b - 1) →
    let s := l.v + p
    let k : Int := if s ≥ 2 ^ (b - 1) then 1 else if s < -(2 ^ (b - 1) : Int) then -1 else 0
    let d := l.acc b p
    d.v = s - k * 2 ^ b ∧ -(2 ^ (b - 1) : Int) ≤ d.v ∧ d.v < 2 ^ (b - 1) ∧
    (l.lost = true → d.ledger = l.ledger ∧ d.lost = true) ∧
    (l.lost = false → -8 ≤ l.ledger + k → l.ledger + k ≤ 7 → d.ledger = l.ledger + k ∧ d.lost = false) ∧
    (l.lost = false → (l.ledger + k < -8 ∨ 7 < l.ledger + k) → d.ledger = l.ledger ∧ d.lost = true)) ∧
  (∀ (a : Accum) (x : MacCtl) (wa wb : Word) (i : Nat), x.paired = true → i < 4 →
    let d := a.mac x wa wb
    let before := (if x.clear then Accum.clear true else a).pair i
    let prod : Int := if x.neg then -(macProduct x wa wb i) else macProduct x wa wb i
    d.pair i = before.acc 80 prod ∧ (d.lane (2 * i)).ledger = 0 ∧ (d.lane (2 * i)).lost = false ∧
    (unsigned 40 (d.lane (2 * i)).v + unsigned 40 (d.lane (2 * i + 1)).v * 2 ^ 40 : Nat) = unsigned 80 (d.pair i).v ∧
    (d.lane (2 * i + 1)).ledger = (d.pair i).ledger ∧ (d.lane (2 * i + 1)).lost = (d.pair i).lost) ∧
  (∀ (b : Nat) (ps : List Int), (b = 40 ∨ b = 80) → (∀ p ∈ ps, -(2 ^ (b - 1) : Int) ≤ p ∧ p ≤ 2 ^ (b - 1)) →
    let l := ps.foldl (fun l p => Lane.acc b l p) Lane.zero
    l.lost = false →
    l.v + l.ledger * 2 ^ b = ps.sum ∧ -(2 ^ (b - 1) : Int) ≤ l.v ∧ l.v < 2 ^ (b - 1) ∧ -8 ≤ l.ledger ∧ l.ledger ≤ 7 ∧
    (∀ shift width : Nat, (b = 40 ∧ width = 16 ∧ shift ≤ 24) ∨ (b = 40 ∧ width = 32 ∧ shift ≤ 8) ∨ (b = 80 ∧ width = 24 ∧ shift ≤ 56) →
      satValue l shift width = max (-(2 ^ (width - 1) : Int))
        (min (if shift = 0 then ps.sum else (ps.sum + 2 ^ (shift - 1)) / 2 ^ shift) (2 ^ (width - 1) - 1))))

/-- A bundle changes only the registers that its slots name (09 R234, R244): whenever BUNDLE_EXECUTE goes on, every g, w, p, m and a
register of the core that no slot writes is as before, a loop counter too where no loop is active; on a signal core every other
core, the other memories and the command queue are as before. -/
def Obligations.BundlesTouchOnlyTheirRegisters : Prop :=
  ∀ (s t : State) (n : Nat) (b : Bundle), exec (.bundleExecute n b) s = .next t →
    let dests := [b.s0, b.s1, b.s2, b.s3].flatMap destsOf
    let c := s.core n
    let d := t.core n
    isControl n = false →
    (∀ i, CReg.g i ∉ dests → d.gr i = c.gr i) ∧ d.gr 0 = 0 ∧ (∀ i, CReg.w i ∉ dests → d.wr i = c.wr i) ∧ (∀ i, CReg.p i ∉ dests → d.pr i = c.pr i) ∧
    (∀ i, CReg.m i ∉ dests → d.mr i = c.mr i) ∧ (∀ i, CReg.a i ∉ dests → d.ar i = c.ar i) ∧
    (c.loops = [] → ∀ i, CReg.c i ∉ dests → d.cr i = c.cr i) ∧
    (∀ k, k ≠ n → t.core k = s.core k) ∧ t.ctlMem = s.ctlMem ∧ t.flash = s.flash ∧ t.sheets = s.sheets ∧ t.pending = s.pending

/-- Bundles complete or trap before any effect (09 R235, R236, R237, R246, R252, R254, R256, R258): a scalar instruction of a running
signal core leaves its result and the next bundle; a branch goes to its target where its condition is met; the account of the task is
charged for the bundle's cycles and those it waited, two for a branch that is taken and one for any other; an illegal bundle ends the
task as faulted with trap 2, or takes a control core to tvec with cause 2 and psr saved; a core whose account is known exhausted saves its
context and gives the task back. Completion is stated for BUNDLE_EXECUTE. -/
def Obligations.BundlesCompleteOrTrap : Prop :=
  ∀ (s : State) (n : Nat) (b : Bundle), s.canIssue n = true →
    let c := s.core n
    let known : Bool := ((s.taskAccount n).map (fun a => s.knowsOut (.core n) a)).getD false
    let held := (c.holdAt.map (fun h => 2 * (s.upNs - h))).getD 0
    let takes (t : State) (k : Nat) (x : Core) : Prop :=
      t.core n = { x with loops := [], cycle := c.cycle + c.stall b + k, since := s.upNs, holdAt := none, ready := (t.core n).ready } ∧
      (∀ m, m ≠ n → t.core m = s.core m) ∧ t.queues = s.queues ∧ t.stnMem = s.stnMem ∧
      (∀ a, s.taskAccount n = some a → ((t.acct a).cur 0).spent = ((s.acct a).cur 0).spent + (c.stall b + k + held)) ∧
      (s.taskAccount n = none → t = { s with cores := t.cores })
    (isControl n = false → known = false → c.loops = [] →
      (∀ (op : ScalarOp) (gd ga : Nat) (src : ScalarSrc) (v : Reg64), b = ⟨.scalar op gd ga src, .nop, .nop, .nop⟩ →
        scalarOp op (c.gr ga) (match src with | .reg gb => c.gr gb | .imm i => BitVec.ofInt 64 i) = some v →
        Completes (.bundleExecute n b) s (fun t => takes t 1 { c.setG gd v with pc := (c.pc + 1) % 4096 })) ∧
      (∀ (cond ga : Nat) (off : Int), cond < 7 → b = ⟨.branch cond ga off, .nop, .nop, .nop⟩ →
        (condMet cond (c.gr ga) = true → Completes (.bundleExecute n b) s (fun t => takes t 2 { c with pc := ((c.pc + off) % 4096).toNat })) ∧
        (condMet cond (c.gr ga) = false → Completes (.bundleExecute n b) s (fun t => takes t 1 { c with pc := (c.pc + 1) % 4096 }))) ∧
      (∀ cond ga : Nat, cond < 7 → b = ⟨.ret cond ga, .nop, .nop, .nop⟩ → condMet cond (c.gr ga) = true →
        Completes (.bundleExecute n b) s (fun t => takes t 2 { c with pc := (c.gr 31).toNat % 4096 }))) ∧
    (∀ r, isControl n = false → known = false → c.task = some r → bundleLegal false c b = false → Completes (.bundleExecute n b) s (fun t =>
      (t.core n).task = none ∧ (t.core n).started = false ∧ t.dis = { s.dis with ended := s.dis.ended ++ [⟨n, r, 1, 2, c.pc, 0⟩] } ∧
      t.dram = s.dram ∧ t.stnMem = s.stnMem ∧ t.queues = s.queues)) ∧
    (isControl n = true → bit c.psr 0 = true → fld c.ptbr 47 12 = 0 → bundleLegal true c b = false → Completes (.bundleExecute n b) s (fun t =>
      t = { s with cores := t.cores } ∧ (t.core n).pc = c.tvec.toNat % 2 ^ 48 / 16 ∧ (t.core n).cause = 2 ∧ (t.core n).epc = BitVec.ofNat 64 (16 * c.pc) ∧
      bit (t.core n).psr 0 = true ∧ bit (t.core n).psr 1 = false ∧ bit (t.core n).psr 2 = bit c.psr 0 ∧ bit (t.core n).psr 3 = bit c.psr 1 ∧
      (t.core n).tval = c.tval ∧ (t.core n).g = c.g ∧ (t.core n).w = c.w)) ∧
    (isControl n = true → bit c.psr 0 = true → fld c.ptbr 47 12 = 0 → b = ⟨.eret, .nop, .nop, .nop⟩ → c.loops = [] → Completes (.bundleExecute n b) s (fun t =>
      t = { s with cores := t.cores } ∧ (t.core n).pc = c.epc.toNat % 2 ^ 48 / 16 ∧ bit (t.core n).psr 0 = bit c.psr 2 ∧
      bit (t.core n).psr 1 = bit c.psr 3 ∧ (t.core n).g = c.g)) ∧
    (∀ (r a : Nat), isControl n = false → c.task = some r → s.taskAccount n = some a → s.knowsOut (.core n) a = true →
      Completes (.bundleExecute n b) s (fun t => (t.core n).task = none ∧ (t.core n).started = false ∧
        (∀ x ∈ t.dis.tasks, x.record = r → x.place = .ready) ∧ ((t.acct a).cur 0).spent = ((s.acct a).cur 0).spent + 128 ∧ t.queues = s.queues ∧ t.stnMem = s.stnMem))

/-- What comes back to a core (09 R231, R235, R238, R247, R248, R249, R251, R254, R258): a DRAM load's value, extended as its form says; a
queue operation's status and word; the end of a posted operation; the end of a SYNC once nothing is out; a presented interrupt, at
tvec with cause 16; a move's tile, its end in gd or as one word of done_q. The cycles that a core has waited, two each nanosecond, are
charged to the account of its task. Completion is stated for DRAM_LOAD_REPLY, QUEUE_REPLY, POSTED_ACK, SYNC, INTERRUPT_ENTRY, MOVE and
MOVE_COMPLETE. -/
def Obligations.CoresReceiveTheirReplies : Prop :=
  ∀ (s : State) (n : Nat),
    let c := s.core n
    let k := 2 * (s.upNs - c.since)
    let went : Core := { c with cycle := c.cycle + k, since := s.upNs }
    let paid (t : State) : Prop :=
      (isControl n = true ∨ s.taskAccount n = none → t = { s with cores := t.cores }) ∧
      (isControl n = false → ∀ a, s.taskAccount n = some a → ((t.acct a).cur 0).spent = ((s.acct a).cur 0).spent + k) ∧
      t.queues = s.queues ∧ t.stnMem = s.stnMem ∧ (∀ m, m ≠ n → t.core m = s.core m)
    (∀ (i size a : Nat) (sext : Bool), c.wait = .load (.g i) size sext a → s.tilePlace a ≠ none → Completes (.dramLoadReply n) s (fun t =>
      paid t ∧ t.core n = ({ went with wait := .no } : Core).setG i
        (if sext then BitVec.ofInt 64 (signed (8 * size) (leNat (t.rd a size))) else BitVec.ofNat 64 (leNat (t.rd a size))))) ∧
    (c.wait = .store → Completes (.dramLoadReply n) s (fun t => paid t ∧ t.core n = { went with wait := .no })) ∧
    (∀ (gd : Nat) (w : Option Nat) (v : Reg64) (x : Option Word) (rest : List (Reg64 × Option Word)), c.wait = .queue gd w → c.replies = (v, x) :: rest →
      Completes (.queueReply n) s (fun t => paid t ∧ (t.core n).wait = .no ∧ (t.core n).replies = rest ∧ (t.core n).pc = c.pc ∧
        (t.core n).cycle = went.cycle ∧ (t.core n).since = s.upNs ∧
        (gd ≠ 0 → (t.core n).gr gd = v) ∧ (∀ i, i ≠ gd → (t.core n).gr i = c.gr i) ∧
        (∀ i y, w = some i → x = some y → (t.core n).wr i = y) ∧ (∀ i, w ≠ some i → (t.core n).wr i = c.wr i))) ∧
    (((∀ gd w, c.wait ≠ .queue gd w) ∨ c.replies = []) → Completes (.queueReply n) s (fun t => t = s)) ∧
    (s.pushesOut n < c.posted → Completes (.postedAck n) s (fun t => t = { s with cores := t.cores } ∧ t.core n = { c with posted := c.posted - 1 })) ∧
    (c.posted ≤ s.pushesOut n → Completes (.postedAck n) s (fun t => t = s)) ∧
    (c.syncing = true → c.posted = 0 → (∀ m ∈ c.moves, m.wait ≠ none) → Completes (.sync n) s (fun t => paid t ∧
      t.core n = { went with syncing := false })) ∧
    (c.posted ≠ 0 → Completes (.sync n) s (fun t => t = s)) ∧
    (s.interruptible n = true → c.presented ≠ none → c.wait = .no → c.syncing = false → c.sleep = false → Completes (.interruptEntry n) s (fun t =>
      t = { s with cores := t.cores } ∧ (t.core n).pc = c.tvec.toNat % 2 ^ 48 / 16 ∧ (t.core n).cause = 16 ∧ (t.core n).epc = BitVec.ofNat 64 (16 * c.pc) ∧
      bit (t.core n).psr 0 = true ∧ bit (t.core n).psr 1 = false ∧ bit (t.core n).psr 2 = bit c.psr 0 ∧ bit (t.core n).psr 3 = bit c.psr 1 ∧
      (t.core n).presented = none ∧ (t.core n).g = c.g ∧ (t.core n).tval = c.tval)) ∧
    (bit c.psr 1 = false → Completes (.interruptEntry n) s (fun t => t = s)) ∧
    (∀ (m : Move) (rest : List Move) (a b : Nat), c.moves = m :: rest → m.status = none → isControl n = true → m.src + 512 * m.done = a → m.dst + 512 * m.done = b →
      inDram a 512 = true → inDram b 512 = true → a % 512 = 0 → b % 512 = 0 → s.guarded a = false → s.guarded b = false → s.tileBase b ≠ none → s.memOk →
      Completes (.move n) s (fun t => t.tile b = s.tile a ∧
        (t.core n).moves = { m with done := m.done + 1, status := if m.done + 1 = m.tiles then some 0 else none } :: rest ∧
        (∀ x k, x / 512 ≠ b / 512 → x % 512 + k ≤ 512 → t.rdTile x k = s.rdTile x k) ∧ t = { s with dram := t.dram, cores := t.cores, fwd := t.fwd })) ∧
    (∀ (m : Move) (rest : List Move) (st : Nat), c.moves = m :: rest → m.status = some st →
      (∀ gd, m.wait = some gd → c.wait = .move gd → Completes (.moveComplete n) s (fun t => paid t ∧
        t.core n = ({ went with moves := rest, wait := .no } : Core).setG gd (BitVec.ofNat 64 (m.report st)))) ∧
      (m.wait = none → Completes (.moveComplete n) s (fun t => t = (s.setCore n { c with moves := rest }).pushItem (.mover n) m.doneQ
        [s.stampWord (BitVec.ofNat 128 (m.ticket % 65536 * 2 ^ 48 + m.report st))] false))) ∧
    (c.moves = [] → Completes (.move n) s (fun t => t = s) ∧ Completes (.moveComplete n) s (fun t => t = s))

/-- Sources and targets (15 R353-R359, R362, R364): an edge event of a source with a priority latches it, of priority 0 does nothing;
software sets raise the events of their bits; a claim by the target's own master answers the best source, makes it active and
raises the running priority, or answers 0 and counts; an EOI of the newest claim restores the priority before it, any other counts
an error; a priority of 0 drops the latch; a target's reset empties its stack; a sleeping core wakes at a pending source that
names it, or takes the presentable one. Completion is stated for INTERRUPT_EVENT, SOFTWARE_SET, INTERRUPT_PRESENT, INTERRUPT_CLAIM, EOI,
SOURCE_CONFIG_WRITE, TARGET_RESET and WAIT_WAKE. -/
def Obligations.InterruptsAreClaimedAndEnded : Prop :=
  ∀ s : State,
    (∀ n, 0 < n → n < 4096 → levelSource n = false →
      (s.get F.INC_SRC_prio 0 n ≠ 0 → Completes (.interruptEvent n) s (fun t => (t.src n).latch = true ∧ (t.src n).active = (s.src n).active ∧
        (∀ k, k ≠ n → (t.src k).latch = (s.src k).latch ∧ (t.src k).active = (s.src k).active) ∧ regsKept s t [.INC_CNT] ∧
        t = { s with regs := t.regs, inc := t.inc })) ∧
      (s.get F.INC_SRC_prio 0 n = 0 → Completes (.interruptEvent n) s (fun t => t = s))) ∧
    (∀ n, levelSource n = true → Completes (.interruptEvent n) s (fun t => (∀ k, (t.src k).latch = (s.src k).latch ∧ (t.src k).active = (s.src k).active) ∧
      regsKept s t [.INC_CNT] ∧ t = { s with regs := t.regs, inc := t.inc })) ∧
    (∀ (m : Master) (a : Nat) (v : Reg64), s.admits m → a < 4 → Completes (.softwareSet m a v) s (fun t =>
      (∀ b, b < 64 → (t.src (64 * a + b)).latch = ((s.src (64 * a + b)).latch || (bit v b && decide (64 * a + b ≠ 0) && decide (s.get F.INC_SRC_prio 0 (64 * a + b) ≠ 0)))) ∧
      (∀ k, k / 64 ≠ a → (t.src k).latch = (s.src k).latch) ∧ regsKept s t [.INC_CNT] ∧ t = { s with regs := t.regs, inc := t.inc, bus := ⟨0, 0⟩ })) ∧
    (∀ k n, k < 16 → s.presentable k = some n → Completes (.interruptPresent k) s (fun t => (t.core (1024 + k)).presented = some n ∧ t = { s with cores := t.cores })) ∧
    (∀ d, d < 2 → s.presentable (16 + d) ≠ none → s.inc.doorbell.getD d false = false → Completes (.interruptPresent (16 + d)) s (fun t =>
      t.inc.doorbell.getD d false = true ∧ t = { s with inc := t.inc, out := t.out } ∧
      t.out = s.out ++ (if s.flag F.INC_DB_CTRL_en 0 d = true ∧ (s.sys.pcie[d]?).getD false = true then [.msix d (s.get F.INC_DB_CTRL_vec 0 d)] else []))) ∧
    (∀ d, d < 2 → s.inc.doorbell.getD d false = true → Completes (.interruptPresent (16 + d)) s (fun t => t = s)) ∧
    (∀ k, s.presentable k = none → Completes (.interruptPresent k) s (fun t => t = s)) ∧
    (∀ k n, k < 18 → s.reaches (ownMaster k) = true → s.presentable k = some n → Completes (.interruptClaim (ownMaster k) k) s (fun t =>
      t.bus = ⟨BitVec.ofNat 64 n, 0⟩ ∧ t.stackOf k = (n, s.runPrio k) :: s.stackOf k ∧ t.runPrio k = s.get F.INC_SRC_prio 0 n ∧ (t.src n).active = true ∧
      regsKept s t [.INC_CNT] ∧ t = { s with regs := t.regs, inc := t.inc, bus := t.bus })) ∧
    (∀ k, k < 18 → s.reaches (ownMaster k) = true → s.presentable k = none → Completes (.interruptClaim (ownMaster k) k) s (fun t =>
      t.bus = ⟨0, 0⟩ ∧ onlyRegs s t ∧ keptBut s t [⟨.INC_CNT, 0, 0⟩] ∧
      t.get F.INC_CNT_none = min (2 ^ (F.INC_CNT_none.hi + 1 - F.INC_CNT_none.lo) - 1) (s.get F.INC_CNT_none + 1))) ∧
    (∀ k n before rest, k < 18 → n < 4096 → s.reaches (ownMaster k) = true → s.stackOf k = (n, before) :: rest → Completes (.eoi (ownMaster k) k n) s (fun t =>
      t.stackOf k = rest ∧ t.runPrio k = before ∧ (t.src n).active = false ∧ t.bus = ⟨0, 0⟩ ∧ regsKept s t [.INC_CNT] ∧
      (k < 16 → t.out = s.out) ∧ t = { s with regs := t.regs, inc := t.inc, bus := t.bus, out := t.out })) ∧
    (∀ k n, k < 18 → n < 4096 → s.reaches (ownMaster k) = true → (∀ before rest, s.stackOf k ≠ (n, before) :: rest) → Completes (.eoi (ownMaster k) k n) s (fun t =>
      onlyRegs s t ∧ keptBut s t [⟨.INC_CNT, 0, 0⟩] ∧
      t.get F.INC_CNT_eoi_err = min (2 ^ (F.INC_CNT_eoi_err.hi + 1 - F.INC_CNT_eoi_err.lo) - 1) (s.get F.INC_CNT_eoi_err + 1))) ∧
    (∀ (m : Master) (n : Nat) (v : Reg64), s.admits m → n < 4096 → Completes (.sourceConfigWrite m n v) s (fun t =>
      t.get F.INC_SRC_prio 0 n = fld v 7 0 ∧ (fld v 7 0 = 0 → (t.src n).latch = false) ∧ (fld v 7 0 ≠ 0 → (t.src n).latch = (s.src n).latch) ∧
      (t.src n).active = (s.src n).active ∧ regsKept s t [.INC_SRC, .INC_CNT] ∧ t = { s with regs := t.regs, inc := t.inc, bus := ⟨0, 0⟩ })) ∧
    (∀ k, k < 18 → (k < 16 → (s.cluster (k / 4)).held = true) → Completes (.targetReset k) s (fun t => t.stackOf k = [] ∧ t.runPrio k = 0 ∧ (∀ e ∈ s.stackOf k, (t.src e.1).active = false) ∧
      t.dram = s.dram ∧ t.queues = s.queues)) ∧
    (∀ k, k < 16 → (s.cluster (k / 4)).held = false → Completes (.targetReset k) s (fun t => t = s)) ∧
    (∀ k, k < 16 → (s.core (1024 + k)).sleep = true → s.named (1024 + k) = true → bit (s.core (1024 + k)).psr 1 = false → Completes (.waitWake (1024 + k)) s (fun t =>
      t = { s with cores := t.cores } ∧ t.core (1024 + k) = { s.core (1024 + k) with sleep := false })) ∧
    (∀ k, k < 16 → let c := s.core (1024 + k)
      c.sleep = true → s.named (1024 + k) = true → bit c.psr 1 = true → c.held = false → s.presentable k ≠ none → c.wait = .no → c.syncing = false →
      Completes (.waitWake (1024 + k)) s (fun t => t = { s with cores := t.cores } ∧ (t.core (1024 + k)).sleep = false ∧
        (t.core (1024 + k)).pc = c.tvec.toNat % 2 ^ 48 / 16 ∧ (t.core (1024 + k)).cause = 16 ∧ (t.core (1024 + k)).epc = BitVec.ofNat 64 (16 * c.pc))) ∧
    (∀ n, s.named n = false → Completes (.waitWake n) s (fun t => t = s)) ∧
    (∀ n, (s.core n).sleep = false → Completes (.waitWake n) s (fun t => t = s))

/-- Keys, alarms and random values (14 R338, R339, R346-R350, 17 R387): KEY_LOAD and KEY_CLEAR start a command, or report busy with
the one in progress unchanged; the completion writes the slot's 128 bytes, drops the slot from every cache, zeroes the staging
registers after a load and reports; an enabled alarm latches its bit, empties the caches and the staging registers, draws new
wrapping keys and ends every job with 0x06; a clear keeps the bits whose conditions hold; a read of SEC_RNG gives zero and counts
while stale. Completion is stated for KEY_LOAD, KEY_CLEAR, KEY_CMD_COMPLETE, ALARM, ALARM_CLEAR, RNG_READ, DRBG_RESEED and
RNG_STALE. -/
def Obligations.KeysAlarmsAndRandomValues : Prop :=
  ∀ s : State,
    (∀ (m : Master) (op tk bank slot : Nat), s.admits m → tk < 256 → bank < 16 → slot < 65536 → (op = 1 ∨ op = 2) →
      let c : Instr := if op = 1 then .keyLoad m tk bank slot else .keyClear m tk bank slot
      (s.sec.keyCmd = none → Completes c s (fun t =>
        t = { s with sec := { s.sec with keyCmd := some ⟨op, tk, bank, slot, 0, none⟩ }, bus := ⟨0, 0⟩ })) ∧
      (s.sec.keyCmd ≠ none → Completes c s (fun t => t.get F.SEC_KEY_STAT_ticket = tk ∧ t.get F.SEC_KEY_STAT_result = 2 ∧
        t.sec = s.sec ∧ t.dram = s.dram ∧ regsKept s t [.SEC_KEY_STAT]))) ∧
    (∀ c, s.sec.keyCmd = some c → c.ticket < 256 → (c.op = 1 ∨ c.op = 2) → (∀ k, k < 128 → s.tileBase (s.slotAddr c.a c.b + k) ≠ none) →
      s.memOk → Completes .keyCmdComplete s (fun t =>
        t.sec.keyCmd = none ∧ (∀ g, t.sec.caches.get? (65536 * g + c.b) = if g = c.a then none else s.sec.caches.get? (65536 * g + c.b)) ∧
        t.rd (s.slotAddr c.a c.b) 128 = (if c.op = 1 then s.wrapEntry c.a c.b s.sec.gen s.staging else List.replicate 128 0) ∧
        (∀ j, j < 9 → t.reg .SEC_KEY_DATA 0 j = if c.op = 1 then 0 else s.reg .SEC_KEY_DATA 0 j) ∧
        t.get F.SEC_KEY_STAT_ticket = c.ticket ∧ t.get F.SEC_KEY_STAT_result = 1 ∧
        t.get F.SEC_KEY_STAT_done = (s.get F.SEC_KEY_STAT_done + 1) % 2 ^ (F.SEC_KEY_STAT_done.hi + 1 - F.SEC_KEY_STAT_done.lo) ∧
        regsKept s t [.SEC_KEY_STAT, .SEC_KEY_DATA])) ∧
    (∀ b, b < 4 → (b = 3 → Config.secured = true) → (s.get F.SEC_ALARM_EN_en).testBit b = true → Completes (.alarm b) s (fun t =>
      (t.get F.SEC_ALARM_STAT_src).testBit b = true ∧ (∀ k, k ≠ b → k < 4 → (t.get F.SEC_ALARM_STAT_src).testBit k = (s.get F.SEC_ALARM_STAT_src).testBit k) ∧
      t.sec.caches = [] ∧ t.sec.keyCmd = none ∧ t.sec.epoch = s.sec.epoch + 1 ∧ t.sec.gen = 0 ∧
      (∀ c, s.sec.keyCmd = some c → t.get F.SEC_KEY_STAT_result = 4) ∧ (∀ j, j < 9 → t.reg .SEC_KEY_DATA 0 j = 0) ∧
      (∀ e ∈ t.sec.jobs, e.2.result = some 6) ∧ t.sec.jobs.map (·.1) = s.sec.jobs.map (·.1) ∧ t.queues = s.queues)) ∧
    (∀ b, (s.get F.SEC_ALARM_EN_en).testBit b = false → Completes (.alarm b) s (fun t => t = s)) ∧
    (∀ (m : Master) (active : Nat) (v : Reg64), s.admits m → active < 16 → Completes (.alarmClear m active v) s (fun t =>
      (∀ k, k < 4 → (t.get F.SEC_ALARM_STAT_src).testBit k = ((s.get F.SEC_ALARM_STAT_src).testBit k && (!bit v k || active.testBit k))) ∧
      regsKept s t [.SEC_ALARM_STAT] ∧ t.dram = s.dram ∧ t.queues = s.queues)) ∧
    (∀ m : Master, s.reaches m = true → s.flag F.SEC_STATUS_rng_stale = true → Completes (.rngRead m) s (fun t => t.bus = ⟨0, 0⟩ ∧ onlyRegs s t ∧ keptBut s t [⟨.SEC_CNT, 0, 0⟩])) ∧
    (∀ m : Master, s.reaches m = true → s.flag F.SEC_STATUS_rng_stale = false → Completes (.rngRead m) s (fun t =>
      t = { s with free := s.free + 1, bus := ⟨BitVec.ofNat 64 (Config.freeValue s.free), 0⟩ })) ∧
    Completes (.drbgReseed true) s (fun t => t.flag F.SEC_STATUS_rng_ok = true ∧ t.flag F.SEC_STATUS_rng_stale = false ∧ t.sec.reseedAt = s.upNs ∧
      regsKept s t [.SEC_STATUS]) ∧
    Completes (.drbgReseed false) s (fun t => t.flag F.SEC_STATUS_rng_ok = false ∧ t.sec.reseedAt = s.sec.reseedAt ∧ t.dram = s.dram) ∧
    (s.sec.reseedAt + 10 ^ 10 ≤ s.upNs → Completes .rngStale s (fun t => t.flag F.SEC_STATUS_rng_stale = true ∧ t = { s with regs := t.regs } ∧
      regsKept s t [.SEC_STATUS])) ∧
    (s.upNs < s.sec.reseedAt + 10 ^ 10 → Completes .rngStale s (fun t => t = s))

/-- Engines serve their lock's holder (14 R335, R341-R344): a claim of a free bookable engine locks it for its holder, another's claim
is refused, a release frees it; a lapsed lock frees it and touches nothing else; an idle engine takes the job at the head of its
job queue: one refused ends before its first byte with result 2, 3 or 4, and any other goes on by at most 512 bytes, in one piece to its end
where it has no more; the done item carries the result; without a lock, with the account known exhausted, or for a job of another
kind, nothing happens. Completion is stated for CLAIM, RELEASE, LOCK_AUTO_RELEASE, GCM_ENCRYPT, GCM_DECRYPT, CTR, HMAC_SHA1 and
CIPHER_JOB_COMPLETE. -/
def Obligations.EnginesServeTheirHolder : Prop :=
  ∀ s : State,
    (∀ (w : Word) (rest : List Word) (s1 : State), s.flag F.SEC_REQ_QUEUE_en = true → s.popItem (s.get F.SEC_REQ_QUEUE_queue) = some (w :: rest, s1) →
      let op := fld w 127 124
      let kind := fld w 123 121
      let e := fld w 120 114
      (kind = 2 ∨ kind = 3) → e < 96 → 4 ≤ e % 6 → fld w 42 23 = noQueue →
      (op = 1 → s.get F.SEC_LOCK_kind 0 e = 0 → Completes .claim s (fun t => t.get F.SEC_LOCK_kind 0 e = kind ∧
        t.get F.SEC_LOCK_holder 0 e = fld w 113 75 ∧ t.get F.SEC_LOCK_account 0 e = fld w 74 63 ∧ t.sec.jobQ.get? e = some (fld w 62 43) ∧
        t = { s1 with regs := t.regs, sec := t.sec } ∧ keptBut s t [⟨.SEC_LOCK, 0, e⟩])) ∧
      (op = 1 → s.get F.SEC_LOCK_kind 0 e ≠ 0 → s.get F.SEC_LOCK_holder 0 e ≠ fld w 113 75 → Completes .claim s (fun t =>
        t = { s1 with regs := t.regs } ∧ keptBut s t [⟨.SEC_CNT, 0, 0⟩])) ∧
      (op = 2 → s.get F.SEC_LOCK_kind 0 e = kind → s.get F.SEC_LOCK_holder 0 e = fld w 113 75 → Completes .release s (fun t =>
        t = s1.freeLock e ∧ t.get F.SEC_LOCK_kind 0 e = 0)) ∧
      (op = 2 → Completes .claim s (fun t => t = s)) ∧ (op ≠ 2 → Completes .release s (fun t => t = s))) ∧
    (∀ e, e < 96 → (s.lockLapsed e = true → Completes (.lockAutoRelease e) s (fun t => t = s.freeLock e ∧ t.reg .SEC_LOCK 0 e = 0 ∧ keptBut s t [⟨.SEC_LOCK, 0, e⟩])) ∧
      (s.lockLapsed e = false → Completes (.lockAutoRelease e) s (fun t => t = s))) ∧
    (∀ (e q op : Nat) (ws : List Word) (s1 : State) (c : Instr), e < 96 → s.sec.jobQ.get? e = some q → s.sec.jobs.get? e = none → s.popItem q = some (ws, s1) →
      fld ((ws[0]?).getD 0) 127 124 = op → ((op = 1 ∧ c = .gcmEncrypt e) ∨ (op = 2 ∧ c = .gcmDecrypt e) ∨ (op = 3 ∧ c = .ctr e) ∨ (op = 4 ∧ c = .hmacSha1 e)) →
      (s.knowsOut (.engine e) (s.get F.SEC_LOCK_account 0 e) = true → Completes c s (fun t => t = s)) ∧
      (s.knowsOut (.engine e) (s.get F.SEC_LOCK_account 0 e) = false →
        Completes c s (fun t => ∃ j : EngJob, t.sec.jobs.get? e = some j ∧ j.words = ws ∧ j.account = s.get F.SEC_LOCK_account 0 e ∧
          (∀ k, k ≠ e → t.sec.jobs.get? k = s.sec.jobs.get? k) ∧ t.queues = s1.queues ∧ t.stnMem = s.stnMem ∧ t.sec.jobQ = s.sec.jobQ ∧
          (j.result = none → 512 < j.len ∧ j.done = 512) ∧
          (∀ r, j.result = some r → r ≤ 5 ∧ (r = 2 ∨ r = 3 ∨ r = 4 → t.dram = s.dram) ∧ (r = 0 ∨ r = 1 → j.done = j.len))))) ∧
    (∀ (e : Nat) (j : EngJob) (c : Instr), e < 96 → s.sec.jobs.get? e = some j → j.result = none →
      ((j.op = 1 ∧ c = .gcmEncrypt e) ∨ (j.op = 2 ∧ c = .gcmDecrypt e) ∨ (j.op = 3 ∧ c = .ctr e) ∨ (j.op = 4 ∧ c = .hmacSha1 e)) →
      (s.knowsOut (.engine e) j.account = true → Completes c s (fun t => t = s)) ∧
      (s.knowsOut (.engine e) j.account = false → Completes c s (fun t => ∃ k : EngJob, t.sec.jobs.get? e = some k ∧ k.words = j.words ∧
        (k.result = some 5 ∨ k.done = j.done + min 512 (j.len - j.done)) ∧ (∀ i, i ≠ e → t.sec.jobs.get? i = s.sec.jobs.get? i) ∧
        t.queues = s.queues ∧ t.stnMem = s.stnMem ∧ t.sec.jobQ = s.sec.jobQ))) ∧
    (∀ (e r : Nat) (j : EngJob), s.sec.jobs.get? e = some j → j.result = some r → Completes (.cipherJobComplete e) s (fun t =>
      t.sec.jobs.get? e = none ∧ (∀ k, k ≠ e → t.sec.jobs.get? k = s.sec.jobs.get? k) ∧
      t = ({ s with sec := { s.sec with jobs := s.sec.jobs.del e } } : State).pushItem (.engine e) (fld ((j.words[0]?).getD 0) 106 87)
        [s.stampWord (BitVec.ofNat 128 (r * 2 ^ 56 + fld ((j.words[0]?).getD 0) 31 0 * 2 ^ 24))])) ∧
    (∀ (e : Nat) (j : EngJob), s.sec.jobs.get? e = some j → j.result = none → Completes (.cipherJobComplete e) s (fun t => t = s)) ∧
    (∀ e, s.sec.jobs.get? e = none → Completes (.cipherJobComplete e) s (fun t => t = s)) ∧
    (∀ e, s.sec.jobQ.get? e = none → s.sec.jobs.get? e = none → Completes (.gcmEncrypt e) s (fun t => t = s) ∧ Completes (.gcmDecrypt e) s (fun t => t = s) ∧
      Completes (.ctr e) s (fun t => t = s) ∧ Completes (.hmacSha1 e) s (fun t => t = s))

/-- Events become records and records reach flash (16 R366-R382): an event that equals a waiting one adds a repeat, another joins a
queue of 16 or is an overrun; the oldest captured event takes a free slot with the next seq; a flush takes what is unflushed and
closes the open record; a page programs records with their marks, up to the page's end, once the sectors ahead are erased, and the flush
ends where one of them may not be; a failure ends the flush with record 0x0701; LOG_CMD is accepted, busy or refused; a sector copy leaves
its 64 KiB at the address; enabling flash finds the write point. Completion is stated for LOG_EVENT, RING_MOVE, FLUSH_START, FLUSH_PAGE,
FLASH_ERROR, LOG_FLUSH, READ_SECTOR and FLASH_ENABLE. -/
def Obligations.EventsBecomeRecordsInFlash : Prop :=
  ∀ s : State,
    (∀ code block unit sev prog snap,
      let e : LogRec := { time := s.stamp, code := code, block := block, unit := unit, severity := sev, prog := prog, mode := s.get F.LOG_CTRL_mode,
                          snap := snap.take 8, rep := 0, seq := 0, overrun := 0, flushed := false }
      let c := s.log.capture
      ((∀ x ∈ c, x.same e = false) → c.length < 16 → Completes (.logEvent code block unit sev prog snap) s (fun t =>
        t = { s with log := { s.log with capture := c ++ [e] } })) ∧
      ((∀ x ∈ c, x.same e = false) → 16 ≤ c.length → Completes (.logEvent code block unit sev prog snap) s (fun t =>
        t.log = { s.log with pendOver := s.log.pendOver + 1 } ∧ t.flag F.LOG_STATUS_overrun_evt = true ∧ t = { s with regs := t.regs, log := t.log } ∧
        regsKept s t [.LOG_STATUS, .LOG_CNT])) ∧
      ((∃ x ∈ c, x.same e = true) → Completes (.logEvent code block unit sev prog snap) s (fun t =>
        t = { s with log := { s.log with capture := t.log.capture } } ∧ t.log.capture.length = c.length ∧
        (∀ (i : Nat) (x y : LogRec), s.log.capture[i]? = some x → t.log.capture[i]? = some y → y = x ∨ (x.same e = true ∧ y = { x with rep := satAdd 16 x.rep 1 }))))) ∧
    (∀ e rest i, s.log.capture = e :: rest → s.log.openRec = none → s.freeSlot 4096 (if s.log.used then s.log.newest + 1 else 0) = some i →
      Completes .ringMove s (fun t => t.log.capture = rest ∧ t.log.ring.get? i = some { e with seq := s.log.seq, overrun := min 0xFFFF s.log.pendOver, flushed := false } ∧
        (∀ k, k ≠ i → t.log.ring.get? k = s.log.ring.get? k) ∧ t.log.seq = (s.log.seq + 1) % 2 ^ 32 ∧ t.log.pendOver = 0 ∧ t.log.newest = i ∧ t.log.openRec = some i ∧
        (6 ≤ e.severity → t.flag F.LOG_STATUS_sev_evt = true) ∧ regsKept s t [.LOG_STATUS] ∧ t.flash = s.flash)) ∧
    (s.log.capture = [] → Completes .ringMove s (fun t => t = s)) ∧
    (s.flag F.LOG_FLASH_en = true → s.log.flush = none → (s.log.flushReq = true ∨ s.log.flushSec ≠ s.nanos / 10 ^ 9) → s.log.pendOver = 0 → s.unflushed ≠ 0 → Completes .flushStart s (fun t =>
      t = { s with log := { s.log with flush := some ⟨s.flushOrder false, false⟩, flushReq := false, openRec := none, flushSec := s.nanos / 10 ^ 9,
                                       cmd := s.log.cmd.map (fun c => { c with served := some 1 }) } })) ∧
    (s.log.flushReq = false → s.log.flushSec = s.nanos / 10 ^ 9 → Completes .flushStart s (fun t => t = s)) ∧
    (s.flag F.LOG_FLASH_en = false ∨ s.log.flush ≠ none → Completes .flushStart s (fun t => t = s)) ∧
    (∀ f i rest r, s.log.flush = some f → f.power = false → f.left = i :: rest → s.log.ring.get? i = some r → s.log.flashSlot < 2 ^ 20 →
      s.log.flashSlot % 4 = 3 → s.sectorErased ((s.log.flashSlot / 1024 + 1) % 1024) = true → s.sectorErased ((s.log.flashSlot / 1024 + 2) % 1024) = true → s.memOk →
      Completes .flushPage s (fun t => t.slotBytes s.log.flashSlot = r.flashBytes ∧ t.log.ring.get? i = some { r with flushed := true } ∧
        t.log.flashSlot = (s.log.flashSlot + 1) % 2 ^ 20 ∧ (∀ k, k < 2 ^ 20 → k ≠ s.log.flashSlot → t.slotBytes k = s.slotBytes k) ∧ t.dram = s.dram ∧
        t.flag F.LOG_STATUS_flash_full = false)) ∧
    (∀ f, s.log.flush = some f → f.power = false →
      (s.eraseAhead = none → Completes .flushPage s (fun t => t.flag F.LOG_STATUS_flash_full = true ∧ t.log.flush = none ∧ t.flash = s.flash ∧
        t.dram = s.dram ∧ t.log.ring = s.log.ring)) ∧
      (s.eraseAhead ≠ none → s.log.flashSlot < 2 ^ 20 → (∀ i ∈ f.left, s.log.ring.get? i ≠ none) → Completes .flushPage s (fun t =>
        t.log.flashSlot = (s.log.flashSlot + min (4 - s.log.flashSlot % 4) f.left.length) % 2 ^ 20 ∧
        (∀ i ∈ f.left.take (4 - s.log.flashSlot % 4), ∃ r, t.log.ring.get? i = some r ∧ r.flushed = true) ∧ t.dram = s.dram))) ∧
    (s.log.flush = none → Completes .flushPage s (fun t => t = s) ∧ Completes .flashError s (fun t => t = s)) ∧
    (s.log.flush ≠ none → Completes .flashError s (fun t => t.log.flush = none ∧ t.flag F.LOG_STATUS_flush_err = true ∧ t.flash = s.flash ∧ t.dram = s.dram)) ∧
    (∀ (m : Master) tk, s.admits m → tk < 256 →
      (s.flag F.LOG_FLASH_en = true → s.log.cmd = none → Completes (.logFlush m tk) s (fun t =>
        t = { s with log := { s.log with cmd := some ⟨1, tk, 0, 0, 0, none⟩, flushReq := true }, bus := ⟨0, 0⟩ })) ∧
      ((s.flag F.LOG_FLASH_en = false ∨ s.log.cmd ≠ none) → ∀ sec, sec < 1024 →
        (Completes (.logFlush m tk) s (fun t => onlyRegs s t ∧ keptBut s t [⟨.LOG_CMD_STAT, 0, 0⟩] ∧ t.get F.LOG_CMD_STAT_ticket = tk ∧
          t.get F.LOG_CMD_STAT_result = if s.log.cmd = none then 3 else 2)) ∧
        Completes (.readSector m tk sec) s (fun t => onlyRegs s t ∧ keptBut s t [⟨.LOG_CMD_STAT, 0, 0⟩] ∧ t.get F.LOG_CMD_STAT_ticket = tk ∧
          t.get F.LOG_CMD_STAT_result = if s.log.cmd = none then 3 else 2)) ∧
      (∀ sec, sec < 1024 → s.flag F.LOG_FLASH_en = true → s.log.cmd = none → s.memOk → s.get F.LOG_RD_ADDR_addr % 512 = 0 →
        (∀ k, k < 65536 → s.tileBase (s.get F.LOG_RD_ADDR_addr + k) ≠ none) → Completes (.readSector m tk sec) s (fun t =>
          t.rd (s.get F.LOG_RD_ADDR_addr) 65536 = Mem.gets erased s.flash (s.regionNo (65536 * sec)) 65536 ∧ t.flash = s.flash ∧
          t.get F.LOG_CMD_STAT_ticket = tk ∧ t.get F.LOG_CMD_STAT_result = 1 ∧ regsKept s t [.LOG_CMD_STAT])) ∧
      (∀ v, Completes (.flashEnable m v) s (fun t => t.flag F.LOG_FLASH_en = true ∧ regsKept s t [.LOG_FLASH] ∧ t.dram = s.dram ∧ t.flash = s.flash ∧
        (s.flag F.LOG_FLASH_en = true → t.log = s.log))))

/-- Every step keeps the forms of the state's maps: DRAM, station memory, the control SRAM, flash and the datum store stay in
canonical form, the register file and the queues keep their keys rising, and the oscillator trim stays a signed number of 40 bits; and a step takes
exactly one command from the queue that waits (00 R8; 02 R41; 11 R276; 13 R315; 17 R400). -/
def Obligations.EveryStepKeepsTheForms : Prop :=
  ∀ s t : State, s.formsOk → step s = .next t → t.formsOk ∧ t.pending = s.pending.tail

/-- The state after reset has those forms, with nothing listed, no queue open, no core running and nothing waiting (18 R406). -/
def Obligations.ResetHasTheForms : Prop :=
  State.reset.formsOk ∧ State.reset.dram = [] ∧ State.reset.regs = [] ∧ State.reset.queues = [] ∧ State.reset.cores = [] ∧ State.reset.pending = []
end

