-- ==== Sys2Proof/Laws/Fields.lean ====
section
/-! SUPPORT. Laws of bit fields: a field reads back as written, and writing one leaves every other bit alone. -/
namespace Sys2Proof

/-- The bits of a word after a field is replaced. -/
theorem testBit_putFld {w : Nat} (v : BitVec w) {hi lo : Nat} (n i : Nat) (h : lo ≤ hi) (hw : hi < w) (hi' : i < w) :
    (putFld v hi lo n).toNat.testBit i = if lo ≤ i ∧ i ≤ hi then n.testBit (i - lo) else v.toNat.testBit i := by
  have hl : v.toNat % 2 ^ lo < 2 ^ lo := Nat.mod_lt _ (Nat.two_pow_pos lo)
  have hb : n % 2 ^ (hi + 1 - lo) < 2 ^ (hi + 1 - lo) := Nat.mod_lt _ (Nat.two_pow_pos _)
  have hx : v.toNat % 2 ^ lo + n % 2 ^ (hi + 1 - lo) * 2 ^ lo + v.toNat >>> (hi + 1) * 2 ^ (hi + 1) =
      2 ^ lo * (2 ^ (hi + 1 - lo) * (v.toNat >>> (hi + 1)) + n % 2 ^ (hi + 1 - lo)) + v.toNat % 2 ^ lo := by
    have hp : (2 : Nat) ^ (hi + 1) = 2 ^ lo * 2 ^ (hi + 1 - lo) := by rw [← Nat.pow_add]; congr 1; omega
    rw [hp, Nat.mul_add, Nat.mul_comm (n % 2 ^ (hi + 1 - lo)) (2 ^ lo), Nat.mul_comm (v.toNat >>> (hi + 1))]
    rw [Nat.mul_assoc]
    omega
  simp only [putFld, BitVec.toNat_ofNat]
  rw [hx, Nat.testBit_mod_two_pow, Nat.testBit_two_pow_mul_add _ hl]
  simp only [hi', decide_true, Bool.true_and]
  by_cases h1 : i < lo
  · have : ¬ (lo ≤ i ∧ i ≤ hi) := by omega
    rw [if_pos h1, if_neg this, Nat.testBit_mod_two_pow]
    simp [h1]
  · rw [if_neg h1, Nat.testBit_two_pow_mul_add _ hb]
    by_cases h2 : i ≤ hi
    · have h3 : i - lo < hi + 1 - lo := by omega
      rw [if_pos h3, if_pos (by omega), Nat.testBit_mod_two_pow]
      simp [h3]
    · have h3 : ¬ i - lo < hi + 1 - lo := by omega
      rw [if_neg h3, if_neg (by omega), Nat.testBit_shiftRight]
      congr 1
      omega

theorem testBit_fld {w : Nat} (v : BitVec w) (hi lo i : Nat) :
    (fld v hi lo).testBit i = (decide (i < hi + 1 - lo) && v.toNat.testBit (lo + i)) := by
  simp [fld, Nat.testBit_mod_two_pow, Nat.testBit_shiftRight]

theorem fld_lt {w : Nat} (v : BitVec w) (hi lo : Nat) : fld v hi lo < 2 ^ (hi + 1 - lo) := Nat.mod_lt _ (Nat.two_pow_pos _)

/-- A field that was written reads as the value cut to its width. -/
theorem fld_putFld_self {w : Nat} (v : BitVec w) {hi lo : Nat} (n : Nat) (h : lo ≤ hi) (hw : hi < w) :
    fld (putFld v hi lo n) hi lo = n % 2 ^ (hi + 1 - lo) := by
  apply Nat.eq_of_testBit_eq
  intro i
  rw [testBit_fld, Nat.testBit_mod_two_pow]
  by_cases hi' : i < hi + 1 - lo
  · rw [testBit_putFld v n (lo + i) h hw (by omega), if_pos (by omega)]
    simp [hi']
  · simp [hi']

/-- A field apart from the one that was written reads as before. -/
theorem fld_putFld_ne {w : Nat} (v : BitVec w) {hi lo h2 l2 : Nat} (n : Nat) (h : lo ≤ hi) (hw : hi < w) (hw2 : h2 < w)
    (hd : h2 < lo ∨ hi < l2) : fld (putFld v hi lo n) h2 l2 = fld v h2 l2 := by
  apply Nat.eq_of_testBit_eq
  intro i
  rw [testBit_fld, testBit_fld]
  by_cases hi' : i < h2 + 1 - l2
  · rw [testBit_putFld v n (l2 + i) h hw (by omega), if_neg (by omega)]
  · simp [hi']

/-- A bit of a word after a field is replaced. -/
theorem bit_putFld {w : Nat} (v : BitVec w) {hi lo : Nat} (n i : Nat) (h : lo ≤ hi) (hw : hi < w) (hi' : i < w) :
    bit (putFld v hi lo n) i = if lo ≤ i ∧ i ≤ hi then n.testBit (i - lo) else bit v i := testBit_putFld v n i h hw hi'

end Sys2Proof
end

