-- ==== Sys2Proof/Laws/Maps.lean ====
section
/-! SUPPORT. Laws of sparse maps and of byte memories: what a read sees after a write, and that every operation keeps the
canonical form. -/
namespace Sys2Proof

variable {α : Type}

/-! ### Sparse maps -/

/-- Every key of the map exceeds `k`. -/
def SMap.above (m : SMap α) (k : Nat) : Prop := ∀ e ∈ m, k < e.1

theorem SMap.rising_cons {j : Nat} {b : α} {m : SMap α} :
    SMap.rising ((j, b) :: m) = true ↔ SMap.above m j ∧ SMap.rising m = true := by
  induction m generalizing j b with
  | nil => simp [SMap.rising, SMap.above]
  | cons e m ih =>
    obtain ⟨k, c⟩ := e
    simp only [SMap.rising, Bool.and_eq_true, decide_eq_true_eq]
    constructor
    · rintro ⟨hjk, hr⟩
      refine ⟨?_, hr⟩
      have h := (ih.1 hr).1
      intro e he
      simp only [List.mem_cons] at he
      rcases he with rfl | he
      · exact hjk
      · exact Nat.lt_trans hjk (h e he)
    · rintro ⟨ha, hr⟩
      exact ⟨ha (k, c) (by simp), hr⟩

@[simp] theorem SMap.get?_nil (k : Nat) : SMap.get? ([] : SMap α) k = none := rfl

theorem SMap.get?_put_self (m : SMap α) (k : Nat) (a : α) : (SMap.put m k a).get? k = some a := by
  induction m with
  | nil => simp [SMap.put, SMap.get?]
  | cons e m ih =>
    obtain ⟨j, b⟩ := e
    simp only [SMap.put]
    split
    · simp [SMap.get?]
    · split
      · simp [SMap.get?]
      · rename_i h1 h2
        have : j ≠ k := by omega
        simp [SMap.get?, this, ih]

theorem SMap.get?_put_ne (m : SMap α) {k x : Nat} (a : α) (h : x ≠ k) : (SMap.put m k a).get? x = m.get? x := by
  induction m with
  | nil => simp [SMap.put, SMap.get?, Ne.symm h]
  | cons e m ih =>
    obtain ⟨j, b⟩ := e
    simp only [SMap.put]
    split
    · simp [SMap.get?, Ne.symm h]
    · split
      · rename_i _ h2
        subst h2
        simp [SMap.get?, Ne.symm h]
      · by_cases hj : j = x
        · simp [SMap.get?, hj]
        · simp [SMap.get?, hj, ih]

/-- What a map holds after `put`. -/
theorem SMap.get?_put (m : SMap α) (k x : Nat) (a : α) :
    (SMap.put m k a).get? x = if x = k then some a else m.get? x := by
  by_cases h : x = k
  · simp [h, SMap.get?_put_self]
  · simp [h, SMap.get?_put_ne m a h]

@[simp] theorem SMap.getD_put_self (m : SMap α) (k : Nat) (a d : α) : (SMap.put m k a).getD k d = a := by
  simp [SMap.getD, SMap.get?_put_self]

theorem SMap.getD_put_ne (m : SMap α) {k x : Nat} (a d : α) (h : x ≠ k) : (SMap.put m k a).getD x d = m.getD x d := by
  simp [SMap.getD, SMap.get?_put_ne m a h]

theorem SMap.get?_of_above {m : SMap α} {k : Nat} (h : SMap.above m k) : m.get? k = none := by
  induction m with
  | nil => rfl
  | cons e m ih =>
    obtain ⟨j, b⟩ := e
    have hj : k < j := h (j, b) (by simp)
    have : j ≠ k := by omega
    simp only [SMap.get?, this, if_false]
    exact ih (fun e he => h e (by simp [he]))

theorem SMap.get?_del_self {m : SMap α} (hr : m.rising = true) (k : Nat) : (SMap.del m k).get? k = none := by
  induction m with
  | nil => rfl
  | cons e m ih =>
    obtain ⟨j, b⟩ := e
    have h := SMap.rising_cons.1 hr
    simp only [SMap.del]
    split
    · rename_i hj
      subst hj
      exact SMap.get?_of_above h.1
    · rename_i hj
      simp [SMap.get?, hj, ih h.2]

theorem SMap.get?_del_ne (m : SMap α) {k x : Nat} (h : x ≠ k) : (SMap.del m k).get? x = m.get? x := by
  induction m with
  | nil => rfl
  | cons e m ih =>
    obtain ⟨j, b⟩ := e
    simp only [SMap.del]
    split
    · rename_i hj
      subst hj
      simp [SMap.get?, Ne.symm h]
    · by_cases hj : j = x
      · simp [SMap.get?, hj]
      · simp [SMap.get?, hj, ih]

theorem SMap.mem_put {m : SMap α} {k : Nat} {a : α} {e : Nat × α} (h : e ∈ SMap.put m k a) : e = (k, a) ∨ e ∈ m := by
  induction m with
  | nil => simpa [SMap.put] using h
  | cons e' m ih =>
    obtain ⟨j, b⟩ := e'
    simp only [SMap.put] at h
    split at h
    · simpa using h
    · split at h
      · simp only [List.mem_cons] at h ⊢
        rcases h with h | h
        · exact .inl h
        · exact .inr (.inr h)
      · simp only [List.mem_cons] at h ⊢
        rcases h with h | h
        · exact .inr (.inl h)
        · rcases ih h with h | h
          · exact .inl h
          · exact .inr (.inr h)

theorem SMap.mem_del {m : SMap α} {k : Nat} {e : Nat × α} (h : e ∈ SMap.del m k) : e ∈ m := by
  induction m with
  | nil => simpa [SMap.del] using h
  | cons e' m ih =>
    obtain ⟨j, b⟩ := e'
    simp only [SMap.del] at h
    split at h
    · exact List.mem_cons_of_mem _ h
    · simp only [List.mem_cons] at h ⊢
      rcases h with h | h
      · exact .inl h
      · exact .inr (ih h)

/-- `put` keeps the keys rising. -/
theorem SMap.rising_put {m : SMap α} (hr : m.rising = true) (k : Nat) (a : α) : (SMap.put m k a).rising = true := by
  induction m with
  | nil => rfl
  | cons e m ih =>
    obtain ⟨j, b⟩ := e
    have h := SMap.rising_cons.1 hr
    simp only [SMap.put]
    split
    · rename_i hk
      refine SMap.rising_cons.2 ⟨?_, hr⟩
      intro e he
      simp only [List.mem_cons] at he
      rcases he with rfl | he
      · exact hk
      · exact Nat.lt_trans hk (h.1 e he)
    · split
      · rename_i _ hk
        subst hk
        exact SMap.rising_cons.2 ⟨h.1, h.2⟩
      · rename_i h1 h2
        refine SMap.rising_cons.2 ⟨?_, ih h.2⟩
        intro e he
        rcases SMap.mem_put he with rfl | he
        · show j < k
          omega
        · exact h.1 e he

/-- `del` keeps the keys rising. -/
theorem SMap.rising_del {m : SMap α} (hr : m.rising = true) (k : Nat) : (SMap.del m k).rising = true := by
  induction m with
  | nil => rfl
  | cons e m ih =>
    obtain ⟨j, b⟩ := e
    have h := SMap.rising_cons.1 hr
    simp only [SMap.del]
    split
    · exact h.2
    · exact SMap.rising_cons.2 ⟨fun e he => h.1 e (SMap.mem_del he), ih h.2⟩

end Sys2Proof

namespace Sys2Proof.Machine

/-! ### Byte memories -/

/-- Canonical form, as two facts. -/
theorem Mem.wf_iff {d : Byte} {m : Mem} : Mem.wf d m = true ↔ SMap.rising m = true ∧ ∀ c ∈ m, c.2 ≠ d := by
  simp [Mem.wf]

/-- Writing a byte keeps the canonical form. -/
theorem Mem.wf_set {d : Byte} {m : Mem} (h : Mem.wf d m = true) (a : Nat) (b : Byte) : Mem.wf d (Mem.set d m a b) = true := by
  rw [Mem.wf_iff] at h ⊢
  unfold Mem.set
  split
  · exact ⟨SMap.rising_del h.1 a, fun c hc => h.2 c (SMap.mem_del hc)⟩
  · rename_i hb
    refine ⟨SMap.rising_put h.1 a b, fun c hc => ?_⟩
    rcases SMap.mem_put hc with rfl | hc
    · exact hb
    · exact h.2 c hc

/-- Writing bytes keeps the canonical form. -/
theorem Mem.wf_sets {d : Byte} (bs : List Byte) : ∀ {m : Mem}, Mem.wf d m = true → ∀ a, Mem.wf d (Mem.sets d m a bs) = true := by
  induction bs with
  | nil => intro m h a; exact h
  | cons b bs ih => intro m h a; exact ih (Mem.wf_set h a b) (a + 1)

/-- A byte read after a byte is written: the written one at its address, every other as before. -/
theorem Mem.get_set {d : Byte} {m : Mem} (h : Mem.wf d m = true) (a x : Nat) (b : Byte) :
    Mem.get d (Mem.set d m a b) x = if x = a then b else Mem.get d m x := by
  have hr := (Mem.wf_iff.1 h).1
  unfold Mem.get Mem.set SMap.getD
  split
  · rename_i hb
    by_cases hx : x = a
    · subst hx; simp [SMap.get?_del_self hr, hb]
    · simp [hx, SMap.get?_del_ne m hx]
  · by_cases hx : x = a
    · subst hx; simp [SMap.get?_put_self]
    · simp [hx, SMap.get?_put_ne m b hx]

/-- A byte outside a run that is written reads as before. -/
theorem Mem.get_sets_ne {d : Byte} (bs : List Byte) : ∀ {m : Mem}, Mem.wf d m = true → ∀ {a x : Nat},
    (x < a ∨ a + bs.length ≤ x) → Mem.get d (Mem.sets d m a bs) x = Mem.get d m x := by
  induction bs with
  | nil => intro m _ a x _; rfl
  | cons b bs ih =>
    intro m h a x hx
    simp only [List.length_cons] at hx
    show Mem.get d (Mem.sets d (Mem.set d m a b) (a + 1) bs) x = _
    rw [ih (Mem.wf_set h a b) (by omega), Mem.get_set h]
    have : x ≠ a := by omega
    simp [this]

/-- A byte inside a run that is written reads as written. -/
theorem Mem.get_sets_in {d : Byte} (bs : List Byte) : ∀ {m : Mem}, Mem.wf d m = true → ∀ {a i : Nat} (hi : i < bs.length),
    Mem.get d (Mem.sets d m a bs) (a + i) = bs[i] := by
  induction bs with
  | nil => intro m _ a i hi; simp at hi
  | cons b bs ih =>
    intro m h a i hi
    show Mem.get d (Mem.sets d (Mem.set d m a b) (a + 1) bs) (a + i) = _
    cases i with
    | zero =>
      rw [Mem.get_sets_ne bs (Mem.wf_set h a b) (by omega), Mem.get_set h]
      simp
    | succ i =>
      have : a + (i + 1) = (a + 1) + i := by omega
      rw [this, ih (Mem.wf_set h a b) (by simpa using hi)]
      simp

@[simp] theorem Mem.gets_length {d : Byte} {m : Mem} (n : Nat) : ∀ a, (Mem.gets d m a n).length = n := by
  induction n with
  | zero => intro a; rfl
  | succ n ih => intro a; simp [Mem.gets, ih]

/-- Reading back a run that was written. -/
theorem Mem.gets_sets {d : Byte} {m : Mem} (h : Mem.wf d m = true) (a : Nat) (bs : List Byte) :
    Mem.gets d (Mem.sets d m a bs) a bs.length = bs := by
  have key : ∀ n k, k + n = bs.length → Mem.gets d (Mem.sets d m a bs) (a + k) n = bs.drop k := by
    intro n
    induction n with
    | zero => intro k hk; simp [Mem.gets, List.drop_of_length_le (by omega : bs.length ≤ k)]
    | succ n ih =>
      intro k hk
      have hlt : k < bs.length := by omega
      rw [Mem.gets, Mem.get_sets_in bs h hlt, Nat.add_assoc, ih (k + 1) (by omega), List.drop_eq_getElem_cons hlt]
  simpa using key bs.length 0 (by omega)

end Sys2Proof.Machine
end

