-- ==== Sys2Proof/Laws/RegMap.lean ====
section
/-! SUPPORT. Laws of the register map: no two registers share an address, and the register found at an address is the one that
stands there. -/
namespace Sys2Proof.Machine

/-- A register's array lies within its block, at naturally aligned offsets. -/
def RegInfo.fits (i : RegInfo) : Bool :=
  decide (i.off + i.stride * (i.count - 1) < 0x1000000) && decide (i.off % 8 = 0) && decide (i.stride % 8 = 0) &&
    (decide (i.stride ≠ 0) || decide (i.count = 1))

/-- Two arrays of one kind of block have no offset in common. -/
def RegInfo.apart (i j : RegInfo) : Bool :=
  decide (i.blk ≠ j.blk) || decide (i.off + i.stride * (i.count - 1) < j.off) || decide (j.off + j.stride * (j.count - 1) < i.off) ||
    decide (i.off % Nat.gcd i.stride j.stride ≠ j.off % Nat.gcd i.stride j.stride)

theorem RegInfo.at?_some {i : RegInfo} {o a : Nat} (h : i.at? o = some a) :
    o = i.off + i.stride * a ∧ (i.stride ≠ 0 → a < i.count) ∧ (i.stride = 0 → a = 0) := by
  unfold RegInfo.at? at h
  split at h
  · cases h
  · split at h
    · split at h
      · simp only [Option.some.injEq] at h
        subst h
        simp_all
      · cases h
    · split at h
      · rename_i h0 hs hc
        simp only [Option.some.injEq] at h
        subst h
        refine ⟨?_, fun _ => hc.2, fun h => absurd h hs⟩
        have := Nat.div_add_mod (o - i.off) i.stride
        omega
      · cases h

theorem RegInfo.at?_own {i : RegInfo} (hf : i.fits = true) {a : Nat} (ha : a < i.count) :
    i.at? (i.off + i.stride * a) = some a := by
  simp only [RegInfo.fits, Bool.and_eq_true, Bool.or_eq_true, decide_eq_true_eq] at hf
  unfold RegInfo.at?
  by_cases hs : i.stride = 0
  · have : a = 0 := by omega
    subst this
    simp [hs]
  · have hp : 0 < i.stride := by omega
    have h1 : i.off + i.stride * a - i.off = i.stride * a := by omega
    have h2 : ¬ i.off + i.stride * a < i.off := by omega
    simp [h1, h2, hs, Nat.mul_div_cancel_left a hp, ha]

theorem RegInfo.apart_sound {i j : RegInfo} (hf : i.fits = true) (hg : j.fits = true) (hb : i.blk = j.blk)
    (h : i.apart j = true) {o a b : Nat} (hi : i.at? o = some a) (hj : j.at? o = some b) : False := by
  obtain ⟨e1, c1, z1⟩ := RegInfo.at?_some hi
  obtain ⟨e2, c2, z2⟩ := RegInfo.at?_some hj
  simp only [RegInfo.fits, Bool.and_eq_true, Bool.or_eq_true, decide_eq_true_eq] at hf hg
  have m1 : i.stride * a ≤ i.stride * (i.count - 1) := by
    by_cases hs : i.stride = 0
    · simp [hs]
    · exact Nat.mul_le_mul_left _ (by have := c1 hs; omega)
  have m2 : j.stride * b ≤ j.stride * (j.count - 1) := by
    by_cases hs : j.stride = 0
    · simp [hs]
    · exact Nat.mul_le_mul_left _ (by have := c2 hs; omega)
  simp only [RegInfo.apart, Bool.or_eq_true, decide_eq_true_eq] at h
  rcases h with ((h | h) | h) | h
  · exact h hb
  · omega
  · omega
  · apply h
    have g1 : i.stride * a % Nat.gcd i.stride j.stride = 0 :=
      Nat.mod_eq_zero_of_dvd (Nat.dvd_trans (Nat.gcd_dvd_left _ _) (Nat.dvd_mul_right _ a))
    have g2 : j.stride * b % Nat.gcd i.stride j.stride = 0 :=
      Nat.mod_eq_zero_of_dvd (Nat.dvd_trans (Nat.gcd_dvd_right _ _) (Nat.dvd_mul_right _ b))
    have e3 : o % Nat.gcd i.stride j.stride = i.off % Nat.gcd i.stride j.stride := by
      rw [e1, Nat.add_mod, g1, Nat.add_zero, Nat.mod_mod]
    have e4 : o % Nat.gcd i.stride j.stride = j.off % Nat.gcd i.stride j.stride := by
      rw [e2, Nat.add_mod, g2, Nat.add_zero, Nat.mod_mod]
    rw [← e3, ← e4]

/-- Every register is in the list of registers. -/
theorem RegName.mem_all (n : RegName) : n ∈ RegName.all := by
  cases n <;> decide

theorem RegName.info_fits (n : RegName) : n.info.fits = true := by
  cases n <;> decide

/-- The infos of a list of registers are pairwise apart. -/
def allApart : List RegName → Bool
  | [] => true
  | n :: ns => ns.all (fun m => RegInfo.apart n.info m.info) && allApart ns

theorem regs_apart : allApart RegName.all = true := by decide +kernel

theorem Block.spans_apart (p q : Block) (b : Nat) (h1 : p.span.1 ≤ b) (h2 : b < p.span.1 + p.span.2)
    (h3 : q.span.1 ≤ b) (h4 : b < q.span.1 + q.span.2) : p = q := by
  cases p <;> cases q <;> simp only [Block.span] at * <;> first | rfl | omega

theorem locateIn_find {r : RegAddr} (hv : r.valid) : ∀ ns : List RegName, allApart ns = true → r.name ∈ ns →
    locateIn (r.name.info.blk.span.1 + r.unit) (r.name.info.off + r.name.info.stride * r.idx) ns = some r := by
  intro ns
  induction ns with
  | nil => intro _ h; simp at h
  | cons n ns ih =>
    intro ha hm
    simp only [allApart, Bool.and_eq_true, List.all_eq_true] at ha
    obtain ⟨hu, hf, hi⟩ := hv
    have own := RegInfo.at?_own r.name.info_fits hi
    simp only [List.mem_cons] at hm
    by_cases hn : r.name = n
    · subst hn
      have hfo : r.name.info.firstOnly = false ∨ r.name.info.blk.span.1 + r.unit = r.name.info.blk.span.1 := by
        cases h : r.name.info.firstOnly
        · exact .inl rfl
        · right; have := hf h; omega
      have hc : r.name.info.blk.span.1 ≤ r.name.info.blk.span.1 + r.unit ∧
          r.name.info.blk.span.1 + r.unit < r.name.info.blk.span.1 + r.name.info.blk.span.2 ∧
          (r.name.info.firstOnly = false ∨ r.name.info.blk.span.1 + r.unit = r.name.info.blk.span.1) :=
        ⟨by omega, by omega, hfo⟩
      have hcan : r.name.info.blk.span.1 + r.unit - r.name.info.blk.span.1 = r.unit := by omega
      cases r
      simp only [locateIn, own, if_pos hc, hcan]
    · have hmem : r.name ∈ ns := by
        rcases hm with h | h
        · exact absurd h hn
        · exact h
      have hap := ha.1 r.name hmem
      simp only [locateIn]
      split
      · rename_i hc
        have hb : n.info.blk = r.name.info.blk :=
          Block.spans_apart _ _ (r.name.info.blk.span.1 + r.unit) hc.1 hc.2.1 (by omega) (by omega)
        cases hat : n.info.at? (r.name.info.off + r.name.info.stride * r.idx) with
        | none => exact ih ha.2 hmem
        | some j => exact (RegInfo.apart_sound n.info_fits r.name.info_fits hb hap hat own).elim
      · exact ih ha.2 hmem

/-- Every register that exists is found at its own address (00 R8, R11). -/
theorem locate_addr {r : RegAddr} (hv : r.valid) : locate r.addr = some r := by
  have hfit := r.name.info_fits
  simp only [RegInfo.fits, Bool.and_eq_true, Bool.or_eq_true, decide_eq_true_eq] at hfit
  obtain ⟨⟨⟨h1, h2⟩, h3⟩, -⟩ := hfit
  have hle : r.name.info.stride * r.idx ≤ r.name.info.stride * (r.name.info.count - 1) :=
    Nat.mul_le_mul_left _ (by have := hv.2.2; omega)
  have hlt : r.name.info.off + r.name.info.stride * r.idx < 0x1000000 := by omega
  have hspan : r.name.info.blk.span.1 + r.unit < 0x1000 := by
    have := hv.1
    cases hb : r.name.info.blk <;> simp only [hb, Block.span] at this ⊢ <;> omega
  have h8 : r.name.info.stride * r.idx % 8 = 0 := by
    rw [Nat.mul_mod, h3]; simp
  have key : ∀ x y : Nat, y < 0x1000000 → x < 0x1000 → y % 8 = 0 →
      (0xFF0000000000 ≤ 0xFF0000000000 + x * 0x1000000 + y ∧ 0xFF0000000000 + x * 0x1000000 + y ≤ 0xFF0FFFFFFFFF ∧
        (0xFF0000000000 + x * 0x1000000 + y) % 8 = 0) ∧
      (0xFF0000000000 + x * 0x1000000 + y - 0xFF0000000000) / 0x1000000 = x ∧
      (0xFF0000000000 + x * 0x1000000 + y) % 0x1000000 = y := by
    intro x y h1 h2 h3
    refine ⟨⟨by omega, by omega, by omega⟩, by omega, by omega⟩
  obtain ⟨hw, hd, hm⟩ := key _ _ hlt hspan (by omega)
  have ha : r.addr = 0xFF0000000000 + (r.name.info.blk.span.1 + r.unit) * 0x1000000 +
      (r.name.info.off + r.name.info.stride * r.idx) := by
    unfold RegAddr.addr; omega
  rw [ha]
  unfold locate
  rw [if_pos hw, hd, hm]
  exact locateIn_find hv _ regs_apart (RegName.mem_all r.name)

/-- No two registers share an address. -/
theorem RegAddr.addr_inj {r q : RegAddr} (hr : r.valid) (hq : q.valid) (h : r.addr = q.addr) : r = q := by
  have := locate_addr hr
  rw [h, locate_addr hq] at this
  simpa using this.symm

end Sys2Proof.Machine
end

