-- ==== Sys2Proof/Laws/State.lean ====
section
/-! SUPPORT. Laws of the state's updates: one lemma for each field and update, and what a register reads as after a write. -/
namespace Sys2Proof.Machine

/-! ### A register set -/

@[simp] theorem State.setReg_dram (s : State) (n : RegName) (v : Reg64) (u i : Nat) : (s.setReg n v u i).dram = s.dram := rfl
@[simp] theorem State.setReg_stnMem (s : State) (n : RegName) (v : Reg64) (u i : Nat) : (s.setReg n v u i).stnMem = s.stnMem := rfl
@[simp] theorem State.setReg_ctlMem (s : State) (n : RegName) (v : Reg64) (u i : Nat) : (s.setReg n v u i).ctlMem = s.ctlMem := rfl
@[simp] theorem State.setReg_flash (s : State) (n : RegName) (v : Reg64) (u i : Nat) : (s.setReg n v u i).flash = s.flash := rfl
@[simp] theorem State.setReg_sheets (s : State) (n : RegName) (v : Reg64) (u i : Nat) : (s.setReg n v u i).sheets = s.sheets := rfl
@[simp] theorem State.setReg_mtb (s : State) (n : RegName) (v : Reg64) (u i : Nat) : (s.setReg n v u i).mtb = s.mtb := rfl
@[simp] theorem State.setReg_dis (s : State) (n : RegName) (v : Reg64) (u i : Nat) : (s.setReg n v u i).dis = s.dis := rfl
@[simp] theorem State.setReg_cores (s : State) (n : RegName) (v : Reg64) (u i : Nat) : (s.setReg n v u i).cores = s.cores := rfl
@[simp] theorem State.setReg_queues (s : State) (n : RegName) (v : Reg64) (u i : Nat) : (s.setReg n v u i).queues = s.queues := rfl
@[simp] theorem State.setReg_mem (s : State) (n : RegName) (v : Reg64) (u i : Nat) : (s.setReg n v u i).mem = s.mem := rfl
@[simp] theorem State.setReg_fwd (s : State) (n : RegName) (v : Reg64) (u i : Nat) : (s.setReg n v u i).fwd = s.fwd := rfl
@[simp] theorem State.setReg_ports (s : State) (n : RegName) (v : Reg64) (u i : Nat) : (s.setReg n v u i).ports = s.ports := rfl
@[simp] theorem State.setReg_vcc (s : State) (n : RegName) (v : Reg64) (u i : Nat) : (s.setReg n v u i).vcc = s.vcc := rfl
@[simp] theorem State.setReg_cmp (s : State) (n : RegName) (v : Reg64) (u i : Nat) : (s.setReg n v u i).cmp = s.cmp := rfl
@[simp] theorem State.setReg_aud (s : State) (n : RegName) (v : Reg64) (u i : Nat) : (s.setReg n v u i).aud = s.aud := rfl
@[simp] theorem State.setReg_sec (s : State) (n : RegName) (v : Reg64) (u i : Nat) : (s.setReg n v u i).sec = s.sec := rfl
@[simp] theorem State.setReg_inc (s : State) (n : RegName) (v : Reg64) (u i : Nat) : (s.setReg n v u i).inc = s.inc := rfl
@[simp] theorem State.setReg_log (s : State) (n : RegName) (v : Reg64) (u i : Nat) : (s.setReg n v u i).log = s.log := rfl
@[simp] theorem State.setReg_sys (s : State) (n : RegName) (v : Reg64) (u i : Nat) : (s.setReg n v u i).sys = s.sys := rfl
@[simp] theorem State.setReg_bus (s : State) (n : RegName) (v : Reg64) (u i : Nat) : (s.setReg n v u i).bus = s.bus := rfl
@[simp] theorem State.setReg_out (s : State) (n : RegName) (v : Reg64) (u i : Nat) : (s.setReg n v u i).out = s.out := rfl
@[simp] theorem State.setReg_free (s : State) (n : RegName) (v : Reg64) (u i : Nat) : (s.setReg n v u i).free = s.free := rfl
@[simp] theorem State.setReg_pending (s : State) (n : RegName) (v : Reg64) (u i : Nat) : (s.setReg n v u i).pending = s.pending := rfl

/-! ### A field set -/

@[simp] theorem State.put_dram (s : State) (f : RegField) (n u i : Nat) : (s.put f n u i).dram = s.dram := rfl
@[simp] theorem State.put_stnMem (s : State) (f : RegField) (n u i : Nat) : (s.put f n u i).stnMem = s.stnMem := rfl
@[simp] theorem State.put_ctlMem (s : State) (f : RegField) (n u i : Nat) : (s.put f n u i).ctlMem = s.ctlMem := rfl
@[simp] theorem State.put_flash (s : State) (f : RegField) (n u i : Nat) : (s.put f n u i).flash = s.flash := rfl
@[simp] theorem State.put_sheets (s : State) (f : RegField) (n u i : Nat) : (s.put f n u i).sheets = s.sheets := rfl
@[simp] theorem State.put_mtb (s : State) (f : RegField) (n u i : Nat) : (s.put f n u i).mtb = s.mtb := rfl
@[simp] theorem State.put_dis (s : State) (f : RegField) (n u i : Nat) : (s.put f n u i).dis = s.dis := rfl
@[simp] theorem State.put_cores (s : State) (f : RegField) (n u i : Nat) : (s.put f n u i).cores = s.cores := rfl
@[simp] theorem State.put_queues (s : State) (f : RegField) (n u i : Nat) : (s.put f n u i).queues = s.queues := rfl
@[simp] theorem State.put_mem (s : State) (f : RegField) (n u i : Nat) : (s.put f n u i).mem = s.mem := rfl
@[simp] theorem State.put_fwd (s : State) (f : RegField) (n u i : Nat) : (s.put f n u i).fwd = s.fwd := rfl
@[simp] theorem State.put_ports (s : State) (f : RegField) (n u i : Nat) : (s.put f n u i).ports = s.ports := rfl
@[simp] theorem State.put_vcc (s : State) (f : RegField) (n u i : Nat) : (s.put f n u i).vcc = s.vcc := rfl
@[simp] theorem State.put_cmp (s : State) (f : RegField) (n u i : Nat) : (s.put f n u i).cmp = s.cmp := rfl
@[simp] theorem State.put_aud (s : State) (f : RegField) (n u i : Nat) : (s.put f n u i).aud = s.aud := rfl
@[simp] theorem State.put_sec (s : State) (f : RegField) (n u i : Nat) : (s.put f n u i).sec = s.sec := rfl
@[simp] theorem State.put_inc (s : State) (f : RegField) (n u i : Nat) : (s.put f n u i).inc = s.inc := rfl
@[simp] theorem State.put_log (s : State) (f : RegField) (n u i : Nat) : (s.put f n u i).log = s.log := rfl
@[simp] theorem State.put_sys (s : State) (f : RegField) (n u i : Nat) : (s.put f n u i).sys = s.sys := rfl
@[simp] theorem State.put_bus (s : State) (f : RegField) (n u i : Nat) : (s.put f n u i).bus = s.bus := rfl
@[simp] theorem State.put_out (s : State) (f : RegField) (n u i : Nat) : (s.put f n u i).out = s.out := rfl
@[simp] theorem State.put_free (s : State) (f : RegField) (n u i : Nat) : (s.put f n u i).free = s.free := rfl
@[simp] theorem State.put_pending (s : State) (f : RegField) (n u i : Nat) : (s.put f n u i).pending = s.pending := rfl

/-! ### A counter raised -/

@[simp] theorem State.count_dram (s : State) (f : RegField) (k u i : Nat) : (s.count f k u i).dram = s.dram := rfl
@[simp] theorem State.count_stnMem (s : State) (f : RegField) (k u i : Nat) : (s.count f k u i).stnMem = s.stnMem := rfl
@[simp] theorem State.count_ctlMem (s : State) (f : RegField) (k u i : Nat) : (s.count f k u i).ctlMem = s.ctlMem := rfl
@[simp] theorem State.count_flash (s : State) (f : RegField) (k u i : Nat) : (s.count f k u i).flash = s.flash := rfl
@[simp] theorem State.count_sheets (s : State) (f : RegField) (k u i : Nat) : (s.count f k u i).sheets = s.sheets := rfl
@[simp] theorem State.count_mtb (s : State) (f : RegField) (k u i : Nat) : (s.count f k u i).mtb = s.mtb := rfl
@[simp] theorem State.count_dis (s : State) (f : RegField) (k u i : Nat) : (s.count f k u i).dis = s.dis := rfl
@[simp] theorem State.count_cores (s : State) (f : RegField) (k u i : Nat) : (s.count f k u i).cores = s.cores := rfl
@[simp] theorem State.count_queues (s : State) (f : RegField) (k u i : Nat) : (s.count f k u i).queues = s.queues := rfl
@[simp] theorem State.count_mem (s : State) (f : RegField) (k u i : Nat) : (s.count f k u i).mem = s.mem := rfl
@[simp] theorem State.count_fwd (s : State) (f : RegField) (k u i : Nat) : (s.count f k u i).fwd = s.fwd := rfl
@[simp] theorem State.count_ports (s : State) (f : RegField) (k u i : Nat) : (s.count f k u i).ports = s.ports := rfl
@[simp] theorem State.count_vcc (s : State) (f : RegField) (k u i : Nat) : (s.count f k u i).vcc = s.vcc := rfl
@[simp] theorem State.count_cmp (s : State) (f : RegField) (k u i : Nat) : (s.count f k u i).cmp = s.cmp := rfl
@[simp] theorem State.count_aud (s : State) (f : RegField) (k u i : Nat) : (s.count f k u i).aud = s.aud := rfl
@[simp] theorem State.count_sec (s : State) (f : RegField) (k u i : Nat) : (s.count f k u i).sec = s.sec := rfl
@[simp] theorem State.count_inc (s : State) (f : RegField) (k u i : Nat) : (s.count f k u i).inc = s.inc := rfl
@[simp] theorem State.count_log (s : State) (f : RegField) (k u i : Nat) : (s.count f k u i).log = s.log := rfl
@[simp] theorem State.count_sys (s : State) (f : RegField) (k u i : Nat) : (s.count f k u i).sys = s.sys := rfl
@[simp] theorem State.count_bus (s : State) (f : RegField) (k u i : Nat) : (s.count f k u i).bus = s.bus := rfl
@[simp] theorem State.count_out (s : State) (f : RegField) (k u i : Nat) : (s.count f k u i).out = s.out := rfl
@[simp] theorem State.count_free (s : State) (f : RegField) (k u i : Nat) : (s.count f k u i).free = s.free := rfl
@[simp] theorem State.count_pending (s : State) (f : RegField) (k u i : Nat) : (s.count f k u i).pending = s.pending := rfl

/-! ### A wrapping counter raised -/

@[simp] theorem State.bump_dram (s : State) (f : RegField) (k u i : Nat) : (s.bump f k u i).dram = s.dram := rfl
@[simp] theorem State.bump_stnMem (s : State) (f : RegField) (k u i : Nat) : (s.bump f k u i).stnMem = s.stnMem := rfl
@[simp] theorem State.bump_ctlMem (s : State) (f : RegField) (k u i : Nat) : (s.bump f k u i).ctlMem = s.ctlMem := rfl
@[simp] theorem State.bump_flash (s : State) (f : RegField) (k u i : Nat) : (s.bump f k u i).flash = s.flash := rfl
@[simp] theorem State.bump_sheets (s : State) (f : RegField) (k u i : Nat) : (s.bump f k u i).sheets = s.sheets := rfl
@[simp] theorem State.bump_mtb (s : State) (f : RegField) (k u i : Nat) : (s.bump f k u i).mtb = s.mtb := rfl
@[simp] theorem State.bump_dis (s : State) (f : RegField) (k u i : Nat) : (s.bump f k u i).dis = s.dis := rfl
@[simp] theorem State.bump_cores (s : State) (f : RegField) (k u i : Nat) : (s.bump f k u i).cores = s.cores := rfl
@[simp] theorem State.bump_queues (s : State) (f : RegField) (k u i : Nat) : (s.bump f k u i).queues = s.queues := rfl
@[simp] theorem State.bump_mem (s : State) (f : RegField) (k u i : Nat) : (s.bump f k u i).mem = s.mem := rfl
@[simp] theorem State.bump_fwd (s : State) (f : RegField) (k u i : Nat) : (s.bump f k u i).fwd = s.fwd := rfl
@[simp] theorem State.bump_ports (s : State) (f : RegField) (k u i : Nat) : (s.bump f k u i).ports = s.ports := rfl
@[simp] theorem State.bump_vcc (s : State) (f : RegField) (k u i : Nat) : (s.bump f k u i).vcc = s.vcc := rfl
@[simp] theorem State.bump_cmp (s : State) (f : RegField) (k u i : Nat) : (s.bump f k u i).cmp = s.cmp := rfl
@[simp] theorem State.bump_aud (s : State) (f : RegField) (k u i : Nat) : (s.bump f k u i).aud = s.aud := rfl
@[simp] theorem State.bump_sec (s : State) (f : RegField) (k u i : Nat) : (s.bump f k u i).sec = s.sec := rfl
@[simp] theorem State.bump_inc (s : State) (f : RegField) (k u i : Nat) : (s.bump f k u i).inc = s.inc := rfl
@[simp] theorem State.bump_log (s : State) (f : RegField) (k u i : Nat) : (s.bump f k u i).log = s.log := rfl
@[simp] theorem State.bump_sys (s : State) (f : RegField) (k u i : Nat) : (s.bump f k u i).sys = s.sys := rfl
@[simp] theorem State.bump_bus (s : State) (f : RegField) (k u i : Nat) : (s.bump f k u i).bus = s.bus := rfl
@[simp] theorem State.bump_out (s : State) (f : RegField) (k u i : Nat) : (s.bump f k u i).out = s.out := rfl
@[simp] theorem State.bump_free (s : State) (f : RegField) (k u i : Nat) : (s.bump f k u i).free = s.free := rfl
@[simp] theorem State.bump_pending (s : State) (f : RegField) (k u i : Nat) : (s.bump f k u i).pending = s.pending := rfl

/-! ### An access answered -/

@[simp] theorem State.answerBus_regs (s : State) (d : Reg64) (n : Nat) : (s.answerBus d n).regs = s.regs := rfl
@[simp] theorem State.answerBus_dram (s : State) (d : Reg64) (n : Nat) : (s.answerBus d n).dram = s.dram := rfl
@[simp] theorem State.answerBus_stnMem (s : State) (d : Reg64) (n : Nat) : (s.answerBus d n).stnMem = s.stnMem := rfl
@[simp] theorem State.answerBus_ctlMem (s : State) (d : Reg64) (n : Nat) : (s.answerBus d n).ctlMem = s.ctlMem := rfl
@[simp] theorem State.answerBus_flash (s : State) (d : Reg64) (n : Nat) : (s.answerBus d n).flash = s.flash := rfl
@[simp] theorem State.answerBus_sheets (s : State) (d : Reg64) (n : Nat) : (s.answerBus d n).sheets = s.sheets := rfl
@[simp] theorem State.answerBus_mtb (s : State) (d : Reg64) (n : Nat) : (s.answerBus d n).mtb = s.mtb := rfl
@[simp] theorem State.answerBus_dis (s : State) (d : Reg64) (n : Nat) : (s.answerBus d n).dis = s.dis := rfl
@[simp] theorem State.answerBus_cores (s : State) (d : Reg64) (n : Nat) : (s.answerBus d n).cores = s.cores := rfl
@[simp] theorem State.answerBus_queues (s : State) (d : Reg64) (n : Nat) : (s.answerBus d n).queues = s.queues := rfl
@[simp] theorem State.answerBus_mem (s : State) (d : Reg64) (n : Nat) : (s.answerBus d n).mem = s.mem := rfl
@[simp] theorem State.answerBus_fwd (s : State) (d : Reg64) (n : Nat) : (s.answerBus d n).fwd = s.fwd := rfl
@[simp] theorem State.answerBus_ports (s : State) (d : Reg64) (n : Nat) : (s.answerBus d n).ports = s.ports := rfl
@[simp] theorem State.answerBus_vcc (s : State) (d : Reg64) (n : Nat) : (s.answerBus d n).vcc = s.vcc := rfl
@[simp] theorem State.answerBus_cmp (s : State) (d : Reg64) (n : Nat) : (s.answerBus d n).cmp = s.cmp := rfl
@[simp] theorem State.answerBus_aud (s : State) (d : Reg64) (n : Nat) : (s.answerBus d n).aud = s.aud := rfl
@[simp] theorem State.answerBus_sec (s : State) (d : Reg64) (n : Nat) : (s.answerBus d n).sec = s.sec := rfl
@[simp] theorem State.answerBus_inc (s : State) (d : Reg64) (n : Nat) : (s.answerBus d n).inc = s.inc := rfl
@[simp] theorem State.answerBus_log (s : State) (d : Reg64) (n : Nat) : (s.answerBus d n).log = s.log := rfl
@[simp] theorem State.answerBus_sys (s : State) (d : Reg64) (n : Nat) : (s.answerBus d n).sys = s.sys := rfl
@[simp] theorem State.answerBus_out (s : State) (d : Reg64) (n : Nat) : (s.answerBus d n).out = s.out := rfl
@[simp] theorem State.answerBus_free (s : State) (d : Reg64) (n : Nat) : (s.answerBus d n).free = s.free := rfl
@[simp] theorem State.answerBus_pending (s : State) (d : Reg64) (n : Nat) : (s.answerBus d n).pending = s.pending := rfl

/-! ### Something sent -/

@[simp] theorem State.emit_regs (s : State) (o : Out) : (s.emit o).regs = s.regs := rfl
@[simp] theorem State.emit_dram (s : State) (o : Out) : (s.emit o).dram = s.dram := rfl
@[simp] theorem State.emit_stnMem (s : State) (o : Out) : (s.emit o).stnMem = s.stnMem := rfl
@[simp] theorem State.emit_ctlMem (s : State) (o : Out) : (s.emit o).ctlMem = s.ctlMem := rfl
@[simp] theorem State.emit_flash (s : State) (o : Out) : (s.emit o).flash = s.flash := rfl
@[simp] theorem State.emit_sheets (s : State) (o : Out) : (s.emit o).sheets = s.sheets := rfl
@[simp] theorem State.emit_mtb (s : State) (o : Out) : (s.emit o).mtb = s.mtb := rfl
@[simp] theorem State.emit_dis (s : State) (o : Out) : (s.emit o).dis = s.dis := rfl
@[simp] theorem State.emit_cores (s : State) (o : Out) : (s.emit o).cores = s.cores := rfl
@[simp] theorem State.emit_queues (s : State) (o : Out) : (s.emit o).queues = s.queues := rfl
@[simp] theorem State.emit_mem (s : State) (o : Out) : (s.emit o).mem = s.mem := rfl
@[simp] theorem State.emit_fwd (s : State) (o : Out) : (s.emit o).fwd = s.fwd := rfl
@[simp] theorem State.emit_ports (s : State) (o : Out) : (s.emit o).ports = s.ports := rfl
@[simp] theorem State.emit_vcc (s : State) (o : Out) : (s.emit o).vcc = s.vcc := rfl
@[simp] theorem State.emit_cmp (s : State) (o : Out) : (s.emit o).cmp = s.cmp := rfl
@[simp] theorem State.emit_aud (s : State) (o : Out) : (s.emit o).aud = s.aud := rfl
@[simp] theorem State.emit_sec (s : State) (o : Out) : (s.emit o).sec = s.sec := rfl
@[simp] theorem State.emit_inc (s : State) (o : Out) : (s.emit o).inc = s.inc := rfl
@[simp] theorem State.emit_log (s : State) (o : Out) : (s.emit o).log = s.log := rfl
@[simp] theorem State.emit_sys (s : State) (o : Out) : (s.emit o).sys = s.sys := rfl
@[simp] theorem State.emit_bus (s : State) (o : Out) : (s.emit o).bus = s.bus := rfl
@[simp] theorem State.emit_free (s : State) (o : Out) : (s.emit o).free = s.free := rfl
@[simp] theorem State.emit_pending (s : State) (o : Out) : (s.emit o).pending = s.pending := rfl

@[simp] theorem State.answerBus_bus (s : State) (d : Reg64) (n : Nat) : (s.answerBus d n).bus = ⟨d, n⟩ := rfl
@[simp] theorem State.emit_out (s : State) (o : Out) : (s.emit o).out = s.out ++ [o] := rfl

/-! ### What a register reads as -/

/-- A register that was set reads as set. -/
theorem State.reg_setReg_self (s : State) (n : RegName) (v : Reg64) (u i : Nat) : (s.setReg n v u i).reg n u i = v := by
  simp [State.reg, State.setReg]

/-- A register at another address reads as before. -/
theorem State.reg_setReg_ne (s : State) {n m : RegName} (v : Reg64) {u i x j : Nat}
    (h : RegAddr.addr ⟨m, x, j⟩ ≠ RegAddr.addr ⟨n, u, i⟩) : (s.setReg n v u i).reg m x j = s.reg m x j := by
  simp [State.reg, State.setReg, SMap.getD_put_ne _ _ _ h]

/-- Another register, where both exist, reads as before. -/
theorem State.reg_setReg_other (s : State) {n m : RegName} (v : Reg64) {u i x j : Nat} (hn : RegAddr.valid ⟨n, u, i⟩)
    (hm : RegAddr.valid ⟨m, x, j⟩) (h : (⟨m, x, j⟩ : RegAddr) ≠ ⟨n, u, i⟩) : (s.setReg n v u i).reg m x j = s.reg m x j :=
  s.reg_setReg_ne v (fun e => h (RegAddr.addr_inj hm hn e))

/-- Registers depend on the register file alone. -/
theorem State.reg_congr {s t : State} (h : t.regs = s.regs) (n : RegName) (u i : Nat) : t.reg n u i = s.reg n u i := by
  simp [State.reg, h]

/-- A field that was set reads as the value cut to its width. -/
theorem State.get_put_self (s : State) (f : RegField) (n u i : Nat) (h : f.lo ≤ f.hi) (hw : f.hi < 64) :
    (s.put f n u i).get f u i = n % 2 ^ (f.hi + 1 - f.lo) := by
  simp only [State.get, State.put, State.reg_setReg_self]
  exact fld_putFld_self _ n h hw

/-- Another field of the register reads as before. -/
theorem State.get_put_field (s : State) (f g : RegField) (n u i : Nat) (hr : g.reg = f.reg) (h : f.lo ≤ f.hi) (hw : f.hi < 64)
    (hg : g.hi < 64) (hd : g.hi < f.lo ∨ f.hi < g.lo) : (s.put f n u i).get g u i = s.get g u i := by
  simp only [State.get, State.put, hr, State.reg_setReg_self]
  exact fld_putFld_ne _ n h hw hg hd

/-- A field of another register reads as before. -/
theorem State.get_put_other (s : State) (f g : RegField) (n u i x j : Nat) (hf : RegAddr.valid ⟨f.reg, u, i⟩)
    (hg : RegAddr.valid ⟨g.reg, x, j⟩) (h : (⟨g.reg, x, j⟩ : RegAddr) ≠ ⟨f.reg, u, i⟩) :
    (s.put f n u i).get g x j = s.get g x j := by
  simp only [State.get, State.put]
  rw [State.reg_setReg_other s _ hf hg h]

/-- The register file keeps its keys rising. -/
theorem State.setReg_rising {s : State} (h : SMap.rising s.regs = true) (n : RegName) (v : Reg64) (u i : Nat) :
    SMap.rising (s.setReg n v u i).regs = true := SMap.rising_put h _ _

/-! ### A master's write by name -/

/-- An accepted write by name: the register's own effect, answered as done. -/
theorem State.writeTo_ok {s : State} {m : Master} (ha : s.admits m) {n : RegName} (hn : plainJudged n = true) (v : Reg64)
    {u i : Nat} (hv : RegAddr.valid ⟨n, u, i⟩) :
    s.writeTo m n v u i = (s.writeReg m ⟨n, u, i⟩ v []).answerBus 0 0 := by
  obtain ⟨h1, h2⟩ := ha
  have hj : s.judgedWrite m ⟨n, u, i⟩ v [] = (true, s.writeReg m ⟨n, u, i⟩ v []) := by
    unfold State.judgedWrite
    cases n <;> simp_all [plainJudged]
  simp [State.writeTo, State.regWrite, State.regWriteWith, h1, locate_addr hv, hj, bnat]

/-- A dropped write by name: counted, and answered as dropped (17 R387, R388). -/
theorem State.writeTo_dropped {s : State} {m : Master} (hr : s.reaches m = true) (hm : s.mayWrite m = false) {n : RegName}
    (hn : plainJudged n = true) (v : Reg64) {u i : Nat} (hv : RegAddr.valid ⟨n, u, i⟩) :
    s.writeTo m n v u i = (s.dropWrite m).answerBus 0 1 := by
  have hj : s.judgedWrite m ⟨n, u, i⟩ v [] = (false, s.dropWrite m) := by
    unfold State.judgedWrite
    cases n <;> simp_all [plainJudged]
  simp [State.writeTo, State.regWrite, State.regWriteWith, hr, locate_addr hv, hj, bnat]

end Sys2Proof.Machine
end

