-- ==== Sys2Proof/Tests/Slice0.lean ====
section
/-! SUPPORT. Named tests: ill-formed commands refused, values that the spec prints, one or two effects of single commands, and
for every statement with hypotheses the states and operands that meet them, clause by clause. -/
namespace Sys2Proof.Tests
set_option Elab.async false
open Sys2Proof Sys2Proof.Machine

/-- The machine after reset. -/
abbrev s0 : State := State.reset

/-- A control core whose writes are accepted after reset. -/
abbrev m0 : Master := .ctl 15

/-- Band 0 enabled over every channel, training ended. -/
def live : State :=
  { s0.put F.MEM_BAND_en 1 with mem := { s0.mem with training := false, bands := [(0, 2 ^ 256 - 1)] } }

/-- Band 0 with each channel a range of its own. -/
def ranged : State := live.put F.MEM_BAND_order 2

theorem unguarded (s : State) (h : ∀ i, i < 32 → s.flag F.MEM_GUARD_en 0 i = false) (a : Nat) : s.guarded a = false := by
  unfold State.guarded
  rw [List.any_eq_false]
  intro i hi
  rw [h i (List.mem_range.mp hi)]; simp

/-- The device owned by MGMT, with a lease of 10 ms. -/
def owned : State :=
  { ((s0.put F.DEV_OWNER_owned 1).put F.DEV_OWNER_master 2).put F.DEV_OWNER_period_ms 10 with
    sys := { s0.sys with leaseEnd := 10 ^ 7, pcie := [true, true] } }

/-- Time passed: n ns of the meridian with trim 0. -/
def State.at_ (s : State) (n : Nat) : State :=
  { s with mtb := { s.mtb with time := n * (65536 * (65536 * 10 ^ 9)), up := n * (65536 * (65536 * 10 ^ 9)) } }

/-- The next state of a command, or the state itself where it stops. -/
def after (c : Instr) (s : State) : State :=
  match exec c s with
  | .next t => t
  | _ => s

/-! ### Ill-formed commands are refused, one for each check -/

theorem test_ill_formed_ranges :
    masterOk (.ctl 16) = false ∧ coreOk 544 = false ∧ coreOk 1040 = false ∧ queueOk noQueue = false ∧ agentOk (.core 1023) = false ∧
    agentOk (.lg 16) = false ∧ agentOk (.vcc 64) = false ∧ agentOk (.cmp 4) = false ∧ agentOk (.aud 2) = false ∧ agentOk (.mem 32) = false ∧
    agentOk (.mover 1040) = false ∧ agentOk (.engine 96) = false ∧ unitOk .station 128 = false ∧ unitOk .codec 64 = false ∧
    unitOk .composer 4 = false ∧ unitOk .audio 2 = false ∧ windowOk 0xFEFFFFFFFFFF = false ∧ windowOk 0xFF1000000000 = false ∧
    ticketOk 256 = false ∧ portOk 16 0 = false ∧ portOk 0 32 = false ∧ chanOk 32 0 = false ∧ chanOk 0 8 = false ∧ audioOk 2 0 = false ∧
    audioOk 0 8 = false ∧ byteOk (2 ^ 48) = false ∧ sregOk (.g 32) = false ∧ sregOk (.p 8) = false ∧ sregOk (.m 8) = false ∧ sregOk (.c 4) = false ∧
    dregOk (.g 32) = false ∧ dregOk (.w 64) = false ∧ signedOk 12 2048 = false ∧ signedOk 12 (-2049) = false := by decide

theorem test_ill_formed_instructions :
    ∀ i ∈ [CoreInstr.scalar .add 32 0 (.imm 0), .scalar .add 0 0 (.imm 32768), .scalar .add 0 0 (.reg 32), .moveReg (.g 32) (.g 0),
        .branch 8 0 0, .branch 0 0 131072, .call 8 0 0, .rep 4 0 false 0, .rep 0 4096 false 0, .rep 0 0 true 32, .rep 0 0 false 2048,
        .limit 0 0 64, .load (.g 32) 8 false ⟨0, 0, 0, 0⟩, .load (.g 1) 3 false ⟨0, 0, 0, 0⟩, .store (.w 64) 16 ⟨0, 0, 0, 0⟩,
        .store (.w 0) 16 ⟨8, 0, 0, 0⟩, .store (.w 0) 16 ⟨0, 0, 4, 0⟩, .qpush 64 0 true, .qpop 0 0 32, .qmark 0 1024 0, .qrewind 0 1024 0,
        .qrelease 0 1024 0, .qflush 32 0, .tready 32 0, .tcancel 0 32, .callsvc 0 0 65536, .mac 8 0 0 ⟨false, false, false, false, false, 0⟩,
        .mac 0 0 0 ⟨false, false, false, false, false, 8⟩, .tapd 0 64 0 0 ⟨false, false, false, false, false, 0⟩, .sat .sat16 0 0 64 0 false, .sat .sat32 0 0 0 8 false,
        .reserved 64], coreInstrOk i = false ∧ bundleOk ⟨.nop, .nop, .nop, i⟩ = false := by decide

theorem test_ill_formed_commands :
    ∀ c ∈ [Instr.registerWrite .mgmt 0xFF0000000004 0, .clearingRead .mgmt 0, .unmappedAccess .mgmt false 0xFF0000000001 0,
        .misalignedAccess .mgmt false 0xFF0000000008 8 0, .stnMapWrite .mgmt 128 0, .oscSelWrite (.ctl 16) true 0, .ptpReceive 512 [], .rasterEnable .mgmt 8 0,
        .transitEntryWrite .mgmt 4096 0 0, .transitEntryWrite .mgmt 0 3 0, .frameOutPulseEnd 4, .frameReceive 16 0 [] true, .bufRet .mgmt 16 0,
        .insert .mgmt 256 0, .delete .mgmt 0 1048576, .policerConfigWrite .mgmt 0 65535 0 0, .policerConfigWrite .mgmt 0 0 2 0,
        .recordWriteback .stream 2097152, .select .mgmt 0 0 16 0 0, .select .mgmt 0 0 0 16 0, .refresh .mgmt 0 0 16777216, .classShaperWrite .mgmt 0 256 0 0, .jobTake 64,
        .startByExpiry 0 4, .commitRequest .mgmt 4 0, .insetShadowWrite .mgmt 0 1024 0 0 0, .insetShadowWrite .mgmt 0 0 64 0 0,
        .insetShadowWrite .mgmt 0 0 0 7 0, .flowLatch 0 16, .portLock 0 0 1099511627776, .csBlockReceive 0 0 (List.replicate 25 0) [],
        .accountCharge 4096 0 0, .accountCharge 0 4 0, .taskReady (some 544) 0, .taskCancel none (2 ^ 48) true, .taskStart 544, .listConfigWrite .mgmt 64 0,
        .qmark .hif 0 4, .qrelease .hif 0 1024, .openQueue .mgmt 32 0 0, .launchLate 0 0 8, .packetiserEnable .mgmt 0 0 256,
        .tileWrite .hif none 1 (List.replicate 512 0) 0, .tileWrite .hif none 0 [] 0, .tileWrite .hif (some 4096) 0 (List.replicate 512 0) 0,
        .tileWrite .hif none 0 (List.replicate 512 0) 4294967296, .tileRead .other 16 0 0, .rowIdleClose 0 0 96, .bandWrite .mgmt 24 0,
        .startTrainingEnd [256], .keyLoad .mgmt 0 16 0, .keyLoad .mgmt 0 0 65536, .ctr 96, .alarm 64, .alarmClear .mgmt (2 ^ 64) 0, .softwareSet .mgmt 4 0,
        .interruptClaim .mgmt 18, .eoi .mgmt 0 4096, .logEvent 65536 0 0 0 false [], .logEvent 0 0 0 16 false [], .logEvent 0 0 0 0 false (List.replicate 9 0),
        .readSector .mgmt 0 65536, .stnLoad .mgmt 128 0, .hold .mgmt 4 0 true, .datumRead .mgmt 0 65536, .regulatorPoll (List.replicate 9 none),
        .powerGate .codec 64, .gangEnable .mgmt 16 0, .pcieLinkUp 2, .bundleExecute 544 ⟨.nop, .nop, .nop, .nop⟩], c.wf = false := by decide +kernel

theorem test_well_formed_at_the_limits :
    ∀ c ∈ [Instr.registerWrite (.ctl 15) 0xFF0FFFFFFFF8 0, .stnMapWrite .mgmt 127 0, .policerConfigWrite .mgmt 15 65534 1 0,
        .bundleExecute 1039 ⟨.scalar .add 31 31 (.imm (-32768)), .branch 7 31 131071, .sat .satp 7 63 63 7 true, .nop⟩,
        .qmark (.engine 95) 0xFFFFE 3, .tileRead .mover 15 15 (2 ^ 48 - 512)], c.wf = true := by decide

/-- No row of the table has bits: no word spells a command, and no state changes for one. -/
theorem test_no_word_is_a_command : decodeTableWord 16 0xFFFF = none ∧ (s0.withFetchWord 16 0xFFFF).pending = [] := by decide

/-! ### Figures that the spec prints -/

/-- RFC 3720's check value. -/
theorem test_crc32c_check_value : crc32c ("123456789".toList.map (fun c => BitVec.ofNat 8 c.toNat)) = 0xE3069283 := by decide +kernel

/-- The example of 13 R316: byte address 0x0012_3456_7800 in band 4 under order 1. -/
theorem test_address_example :
    let s : State := { (s0.put F.MEM_BAND_en 1 0 4).put F.MEM_BAND_order 1 0 4 with mem := { s0.mem with bands := [(4, 2 ^ 256 - 1)] } }
    s.tilePlace 0x001234567800 = some (168, 551084) ∧ s.tilePlace 0x001234567A00 = some (169, 551084) ∧
    s.tileBase 0x001234567800 = some (dramNo 168 (512 * 551084)) ∧ sumNo 168 551084 = dramNo 168 0x5F61A2B0 := by decide +kernel

/-- The example of 09 R242: a lane wraps up at product 512, down at subtraction 9. -/
theorem test_ledger_example :
    let p : Int := 2 ^ 30
    let up : Lane := (⟨548682072064, 0, false⟩ : Lane).acc 40 p
    up = ⟨-549755813888, 1, false⟩ ∧ satValue ⟨-541165879296, 1, false⟩ 24 16 = 32767 ∧ up.acc 40 (-p) = ⟨548682072064, 0, false⟩ ∧
    satValue ⟨515396075520, 0, false⟩ 24 16 = 30720 := by decide

/-- The example of 18 R417: two estimates above the cap. -/
theorem test_power_example :
    let s := after (.powerEstimate 1080) ((s0.put F.PWR_CAP_cap_w 1000).put F.PWR_CAP_scale_min 0x4000)
    s.get F.DIS_SCALE_scale = 60681 ∧ (after (.powerEstimate 1078) s).get F.DIS_SCALE_scale = 56290 ∧ s.flag F.PWR_STATUS_capped = true := by
  decide +kernel

/-- The example of 10 R260: the reserves of the two accounts at the boundary. -/
theorem test_account_example :
    (⟨400528, 0, 400000⟩ : Currency).renew 400000 4 = ⟨0, -528, 400000⟩ ∧ (⟨60000, 0, 200000⟩ : Currency).renew 200000 4 = ⟨0, 50000, 200000⟩ ∧
    ((⟨400528, 0, 400000⟩ : Currency).renew 400000 4).left = 399472 := by decide

/-- The example of 12 R307: packets of a frame, their release times, and the time of a frame of 1,266 bytes at 10 Gbit/s. -/
theorem test_packetiser_example :
    let w6 : Word := BitVec.ofNat 128 (1200 * 2 ^ 103 + 1080 * 2 ^ 91 + 1125 * 2 ^ 79 + 764444)
    let x : PktFlow := ⟨true, [0, 0, 0, 0, 0, 0, w6], []⟩
    let v (j : Nat) : Vid := ⟨0, 20000000, 50, 1000000000, j, [], 5, 1920, 1080, 0, 0⟩
    vidPackets x (v 0) = 4320 ∧ vidTime x (v 0) = 20764444 ∧ vidTime x (v 1) = 20768888 ∧ vidTime x (v 4319) = 39959999 ∧
    s0.txTime 0 0 1266 = 1033 := by decide +kernel

/-- The example of 02 R48: vernier 1,480 ppb less 5,000 ppb of absorption. -/
theorem test_relock_example :
    let s := (s0.put F.MTB_STATUS_state 1).put F.MTB_SLEW_LIMIT_slew_ppb 10000
    let s := after (.vernierWrite m0 0x0000000005C80000) s
    let s := after (.registerWrite m0 (RegAddr.addr ⟨.MTB_PHASE_ADJ, 0, 0⟩) 0x1388FFFFD1200000) s
    s.rateF = 1480 * 65536 ∧ s.rateP = -5000 * 65536 := by decide +kernel

/-- The example of 06 R167 and R169: the floor bound of a sweep picture, and the debt after it. -/
theorem test_rate_example :
    let c0 : Word := BitVec.ofNat 128 (2 * 2 ^ 124 + 1920 * 2 ^ 100 + 1080 * 2 ^ 86)
    floorBound c0 0 1 = 34416 := by decide +kernel

/-- A CTU of column `c` of the example of 06 R169: 2,200 bits coded normally; in floor mode 380 in the refresh column, else 30. -/
def rateCtu (c : Nat) : CtuCode × Nat :=
  if c = 0 then (⟨true, 30, 2200, 380, 0, []⟩, 512) else (⟨false, 30, 2200, 30, 0, []⟩, 48)

/-- The example of 06 R169: from row 9 on at 110,000 bits, CTU 19 of the row is the first in floor mode, 8 rows hold such CTUs, and the
picture takes 160,880 bits. -/
theorem test_floor_example :
    let r := floorRun 128468 166835 30 ((List.range 240).map (fun i => rateCtu (i % 30))) 270 110000 false
    r.findIdx? (·.2) = some 19 ∧ floorRowsOf 30 r = 8 ∧ 110000 + total (r.map (·.1)) = 160880 := by decide +kernel

/-- tw_seq stands in bits 63 to 48 of word 4 of a leg (04 R93). -/
theorem test_leg_tw_seq :
    let s := live.setWord (live.legAddr 7 + 64) (BitVec.ofNat 128 (0xABCD * 2 ^ 48))
    fld ((s.legWords 7)[0]?.getD 0) 63 48 = 0xABCD := by decide +kernel

/-- The example of 07 R199: decimation and the line buffers of three sources shown at 384 x 216. -/
theorem test_pipe_example :
    decimation 1280 384 = 2 ∧ ceilDiv 1280 2 = 640 ∧ lineFits 0 1280 720 384 216 = true ∧
    decimation 1920 384 = 4 ∧ ceilDiv 1920 4 = 480 ∧ lineFits 0 1920 1080 384 216 = true ∧
    lineFits 0 7680 4320 3840 2160 = false := by decide

/-- 07 R192: at ratio 1 a destination sample maps to its own source sample, at ratio 2 half a sample past 2x. -/
theorem test_pipe_positions :
    (List.range 4).map (fun x => pipePos 64 64 x / 65536) = [0, 1, 2, 3] ∧ pipePos 128 64 5 = 10 * 65536 + 32768 := by decide

/-- 07 R190, BT.709: narrow white and black in full range, an RGBA8 white in narrow range. -/
theorem test_colour_ends :
    rangeConv true 1 0 235 = (219 * 255, 219) ∧ rangeConv true 1 0 16 = (0, 219) ∧
    matrixConv 0 false 1 0 255 255 255 = (235 * 2550000, 2550000) := by decide

theorem hyps_StepRunsFrontCommand :
    ({ s0 with pending := [.leaseLapse, .aliveToggle] } : State).pending = .leaseLapse :: [.aliveToggle] ∧
    s0.pending = [] ∧ (∀ n, n < 32 → (s0.qnode n).cmds = []) := by decide +kernel

theorem hyps_AccessCodesGovernAccesses :
    (∀ r ∈ [(⟨.MEM_GUARD, 0, 31⟩ : RegAddr), ⟨.DIS_ACCT_GRANT0, 0, 4095⟩, ⟨.AUD_PORT_STAT, 1, 7⟩, ⟨.LOG_STATUS, 0, 0⟩,
        ⟨.INC_DB_CTRL, 0, 1⟩, ⟨.MTB_PTP_PORT, 0, 511⟩],
      r.name ∈ [RegName.MEM_GUARD, .DIS_ACCT_GRANT0, .AUD_PORT_STAT, .LOG_STATUS, .INC_DB_CTRL, .MTB_PTP_PORT] ∧ r.valid) ∧
    s0.admits m0 ∧ s0.reaches .mgmt = true ∧
    (∀ r ∈ [(⟨.DEV_OWN_CNT, 0, 0⟩ : RegAddr), ⟨.MEM_MAP_ERR, 0, 0⟩, ⟨.SEC_CNT, 0, 0⟩, ⟨.INC_CNT, 0, 0⟩, ⟨.VCC_CNT, 63, 0⟩],
      r.name ∈ [RegName.DEV_OWN_CNT, .MEM_MAP_ERR, .SEC_CNT, .INC_CNT, .VCC_CNT] ∧ r.valid) ∧
    (∀ r ∈ [(⟨.DEV_ID, 0, 0⟩ : RegAddr), ⟨.PWR_CAP, 0, 0⟩, ⟨.LNK_PORT_CFG, 15, 31⟩, ⟨.DIS_CTRL, 0, 0⟩],
      r.name ∈ [RegName.DEV_ID, .PWR_CAP, .LNK_PORT_CFG, .DIS_CTRL] ∧ r.valid) := by
  unfold State.admits; decide +kernel

theorem hyps_RefusedAccessesAreOnlyCounted :
    s0.reaches .mgmt = true ∧ (∀ n, Master.mgmt = .ctl n → n < 16) ∧ (2 ^ 48 - 8 < 2 ^ 48 ∧ locate (2 ^ 48 - 8) = none) ∧
    (8 ≠ 8 ∨ 12 % 8 ≠ 0) ∧ (4 ≠ 8 ∨ 8 % 8 ≠ 0) ∧
    (RegAddr.valid ⟨.DIS_ACCT_GRANT0, 0, 4095⟩ ∧ plainJudged .DIS_ACCT_GRANT0 = true ∧ s0.mayWrite .mgmt = false ∧
      s0.mayWrite (.ctl 15) = true ∧ (s0.put F.DEV_DELEGATE_clusters 7).mayWrite (.ctl 15) = false) :=
  ⟨by decide +kernel, (fun _ h => nomatch h), by decide +kernel⟩

/-- Station 127 drained; station 0 in service; physical station 136 does not exist; station 1's physical station is another's. -/
theorem hyps_StationMapWriteJudged (h : Config.selfTest 32 = true) :
    let s := s0.put F.DIS_STN_STATE_state 2 0 127
    s.admits m0 ∧ s.physOf 127 = 133 ∧ 32 ≠ s.physOf 127 ∧
    ((∀ k, k < 128 → s.physOf k ≠ 32) ∧ 32 ≤ 135 ∧ 32 ∉ s.sys.stnHalted ∧ Config.selfTest 32 = true ∧
      (s.get F.DIS_STN_STATE_state 0 127 = 2 ∨ s.get F.DIS_STN_STATE_state 0 127 = 3)) ∧
    (136 ≠ s.physOf 127 ∧ ¬ 136 ≤ 135) ∧ (1 ≠ s.physOf 127 ∧ ¬ (∀ k, k < 128 → s.physOf k ≠ 1)) ∧
    (32 ≠ s.physOf 0 ∧ ¬ (s.get F.DIS_STN_STATE_state 0 0 = 2 ∨ s.get F.DIS_STN_STATE_state 0 0 = 3)) := by
  refine ⟨?_, ?_, ?_, ⟨?_, ?_, ?_, h, ?_⟩, ?_, ?_, ?_⟩ <;> first | (unfold State.admits; decide +kernel) | decide +kernel

theorem hyps_OwnershipFollowsClaimsAndLeases :
    (s0.reaches .mgmt = true ∧ candidate .mgmt = true ∧ s0.flag F.DEV_OWNER_owned = false) ∧
    (owned.reaches .mgmt = true ∧ owned.flag F.DEV_OWNER_owned = true ∧ owned.ownedBy .mgmt = true) ∧
    (let s := (owned.put F.DEV_HANDOVER_en 1).put F.DEV_HANDOVER_successor 1
     s.reaches .hif1 = true ∧ s.successor .hif1 = true ∧ s.ownedBy .hif1 = false) ∧
    (bit (0x64000000000 : Reg64) 0 = false ∧ bit (0x64000000000 : Reg64) 1 = false ∧ s0.sys.porst = false) ∧
    (owned.flag F.DEV_OWNER_owned = true ∧ owned.upNs < owned.sys.leaseEnd ∧
      (State.at_ owned (10 ^ 7)).sys.leaseEnd ≤ (State.at_ owned (10 ^ 7)).upNs) ∧
    (let cancel : Reg64 := 0; let named : Reg64 := 0x8000000000000003; let own : Reg64 := 0x8000000000000002; let far : Reg64 := 0x8000000000000004
     bit cancel 63 = false ∧ (bit named 63 = true ∧ fld named 7 0 ≤ 3 ∧ fld named 7 0 ≠ Master.code .mgmt) ∧
     (bit own 63 = true ∧ fld own 7 0 = Master.code .mgmt) ∧ (bit far 63 = true ∧ 3 < fld far 7 0)) ∧
    (owned.reaches .hif1 = true ∧ owned.ownedBy .hif1 = false) ∧
    (let s : State := { State.at_ owned (10 ^ 7) with pending := [.aliveToggle, .renew .mgmt] }
     s.flag F.DEV_OWNER_owned = true ∧ s.leaseMet = true) ∧
    (let s : State := { State.at_ owned (10 ^ 7) with pending := [.meridianAdvance 1, .renew .mgmt] }
     s.flag F.DEV_OWNER_owned = true ∧ s.leaseMet = false ∧ s.sys.leaseEnd ≤ s.upNs) := by decide +kernel

/-- A queue of class F with capacity 16 that holds one item of two words. -/
def fq (ws : List (List Word)) : Queue :=
  { cls := 1, slotWords := 2, log2cap := 4, spill := noQueue, idle := 0xEE, wr := ws.length, rd := 0, rel := 0,
    marks := List.replicate 4 ⟨false, 0⟩, lost := 0, flushDrop := 0, bad := 0, pushed := 0, popped := 0, items := ws, partials := [],
    ready := [], readBufs := [], feed := false, dropping := [] }

/-- The in-band agent's request queue holds an item of op `op`. -/
def ibaAsked (op : Nat) : State :=
  { (s0.put F.DEV_IBA_QUEUE_en 1).put F.DEV_IBA_QUEUE_queue 7 with queues := [(7, fq [[BitVec.ofNat 128 (op * 2 ^ 124), 5]])] }

/-- Does a queue of a state give a whole item? -/
def gives (s : State) (q : Nat) (ws : List Word) : Bool := ((s.popItem q).map (fun x => x.1 == ws)).getD false

theorem gives_spec (s : State) (q : Nat) (ws : List Word) (h : gives s q ws = true) : ∃ u, s.popItem q = some (ws, u) := by
  unfold gives at h
  cases e : s.popItem q with
  | none => simp [e] at h
  | some x =>
    obtain ⟨a, u⟩ := x
    refine ⟨u, ?_⟩
    rw [e] at h
    simp at h
    rw [h]

theorem hyps_AgentsPerformRequests :
    (∀ op ∈ [1, 2, 3], (ibaAsked op).flag F.DEV_IBA_QUEUE_en = true ∧
      (((ibaAsked op).queues.get? ((ibaAsked op).get F.DEV_IBA_QUEUE_queue)).map (·.cls)).getD 0 = 1 ∧
      gives (ibaAsked op) ((ibaAsked op).get F.DEV_IBA_QUEUE_queue) [BitVec.ofNat 128 (op * 2 ^ 124), 5] = true ∧
      fld (BitVec.ofNat 128 (op * 2 ^ 124)) 127 124 = op) ∧
    (s0.inReset = false ∧ s0.sys.tripped = false ∧ 255 < 256 ∧ 2 ^ 48 - 1 < 2 ^ 48) ∧
    ({ s0 with sys := { s0.sys with sysrst := true } } : State).inReset = true ∧
    ({ s0 with sys := { s0.sys with tripped := true } } : State).sys.tripped = true := by decide +kernel

/-- A load of station 127's instruction memory of core 0, accepted. -/
def loading : State := { ranged with sys := { ranged.sys with loads := [(127, ⟨1, 255, 0, 0, 133, none⟩)] } }

theorem hyps_StationLoadsAndDatumCommands :
    (let s := ranged.put F.DIS_STN_STATE_state 2 0 127
     s.admits m0 ∧ s.get F.DIS_STN_STATE_state 0 127 = 2 ∧ s.sys.loads.get? 127 = none ∧
     (fld (0x1000000000000000 : Reg64) 63 60 = 1 ∧ fld (0x1000000000000000 : Reg64) 51 48 ≤ 8) ∧
     (fld (0x1000000000000000 : Reg64) 47 0 % 512 = 0 ∧ s.backed 0 (loadTarget 0 0).1 = true) ∧
     ¬ fld (0x1000000000000001 : Reg64) 47 0 % 512 = 0 ∧ ¬ fld (0x1009000000000000 : Reg64) 51 48 ≤ 8) ∧
    (let s := loading
     s.sys.loads.get? 127 = some ⟨1, 255, 0, 0, 133, none⟩ ∧ 0 % 512 = 0 ∧ (∀ i, i < (loadTarget 133 0).1 / 512 → s.guarded (512 * i) = false)) ∧
    (ranged.admits m0 ∧ ranged.sys.datum = none ∧ ranged.datumAddr 0 = true ∧ sheetValid (ranged.rd 0 65536) = false) ∧
    (let s : State := { ranged with sys := { ranged.sys with datum := some ⟨2, 1, 0, 0, 0, none⟩ } }
     s.sys.datum = some ⟨2, 1, 0, 0, 0, none⟩ ∧ s.sys.sheetCopy < 2) := by
  unfold State.admits
  refine ⟨by decide +kernel, ⟨by decide +kernel, by decide +kernel, fun i _ => unguarded _ (by decide +kernel) _⟩, by decide +kernel, by decide +kernel⟩

/-- A datum sheet but for its checksum: the header of 17 R400 and 65,520 zero bytes. -/
def sheetBody : List Byte := leBytes 4 0x4C445331 ++ leBytes 2 1 ++ leBytes 2 0 ++ leBytes 4 65536 ++ List.replicate 65520 0

/-- The whole sheet. -/
def sheet : List Byte := sheetBody ++ leBytes 4 (crc32c sheetBody)

theorem sheetBody_length : sheetBody.length = 65532 := by
  simp only [sheetBody, List.length_append, List.length_replicate]; decide +kernel

theorem sheet_length : sheet.length = 65536 := by
  simp only [sheet, List.length_append, sheetBody_length]; rfl

theorem leNat_leBytes4 (n : Nat) (h : n < 2 ^ 32) : leNat (leBytes 4 n) = n := by
  simp only [leBytes, leNat, BitVec.toNat_ofNat]; omega

theorem crcBit_lt (p c : Nat) (b : Bool) (hp : p < 2 ^ 32) (hc : c < 2 ^ 32) : crcBit p c b < 2 ^ 32 := by
  have h : c >>> 1 < 2 ^ 32 := by rw [Nat.shiftRight_eq_div_pow]; omega
  unfold crcBit; split
  · exact Nat.xor_lt_two_pow h hp
  · exact h

theorem crcOver_lt (p : Nat) (hp : p < 2 ^ 32) : ∀ (bs : List Byte) (c : Nat), c < 2 ^ 32 → crcOver p c bs < 2 ^ 32 := by
  have bits : ∀ (l : List Nat) (b : Byte) (c : Nat), c < 2 ^ 32 →
      l.foldl (fun c i => crcBit p c (b.toNat.testBit i)) c < 2 ^ 32 := by
    intro l b
    induction l with
    | nil => intro c h; exact h
    | cons i l ih => intro c h; exact ih _ (crcBit_lt p c _ hp h)
  intro bs
  induction bs with
  | nil => intro c h; exact h
  | cons b bs ih => intro c h; exact ih _ (bits _ b c h)

theorem crc32c_lt (bs : List Byte) : crc32c bs < 2 ^ 32 :=
  Nat.xor_lt_two_pow (crcOver_lt _ (by decide) bs _ (by decide)) (by decide)

theorem sheet_take (n : Nat) (h : n ≤ 65532) : sheet.take n = sheetBody.take n := by
  rw [sheet, List.take_append_of_le_length (by rw [sheetBody_length]; exact h)]

theorem sheet_num (o k : Nat) (h : o + k ≤ 12) : numAt sheet o k = numAt (leBytes 4 0x4C445331 ++ leBytes 2 1 ++ leBytes 2 0 ++ leBytes 4 65536) o k := by
  have e : ∀ (a b : List Byte), o + k ≤ a.length → ((a ++ b).drop o).take k = (a.drop o).take k := by
    intro a b h
    rw [List.drop_append_of_le_length (by omega), List.take_append_of_le_length (by rw [List.length_drop]; omega)]
  unfold numAt sheet sheetBody
  rw [List.append_assoc _ (List.replicate _ _)]
  rw [e _ _ (by simp only [List.length_append]; exact h)]

theorem sheet_valid : sheetValid sheet = true ∧ numAt sheet 6 2 % 2 = 0 := by
  refine ⟨?_, by rw [sheet_num 6 2 (by decide)]; decide +kernel⟩
  unfold sheetValid
  have c : numAt sheet 65532 4 = crc32c (sheet.take 65532) := by
    rw [sheet_take _ (Nat.le_refl _), List.take_of_length_le (Nat.le_of_eq sheetBody_length)]
    unfold numAt sheet
    rw [List.drop_append_of_le_length (Nat.le_of_eq sheetBody_length.symm), List.drop_of_length_le (Nat.le_of_eq sheetBody_length), List.nil_append]
    exact leNat_leBytes4 _ (crc32c_lt _)
  rw [sheet_num 0 4 (by decide), sheet_num 4 2 (by decide), sheet_num 8 4 (by decide), c]
  simp only [beq_self_eq_true, Bool.and_true]
  decide +kernel

theorem inForce_of (s : State) (h : sheetValid (s.sheetCopyBytes 0) = true) : s.sheetInForce ≠ none := by
  unfold State.sheetInForce
  cases e : sheetValid (s.sheetCopyBytes 1) <;> simp [h, e]

theorem holds_present (b : List Byte) (hl : b.length = 65536) (hv : sheetValid b = true) :
    let s : State := { s0 with sheets := Mem.sets dflt [] 0 b, sys := { s0.sys with porst := true } }
    s.presentSheet = b ∧ s.sheetInForce ≠ none ∧ s.sys.porst = true := by
  have h := Mem.gets_sets (d := dflt) (m := []) (by decide) 0 b
  rw [hl] at h
  have c : ∀ k, s0.sys.sheetCopy = k → k * 65536 = 0 := by intro k hk; subst hk; decide
  refine ⟨?_, ?_, rfl⟩
  · unfold State.presentSheet State.sheetCopyBytes
    rw [c _ rfl]
    exact h
  exact inForce_of _ (by unfold State.sheetCopyBytes; rw [Nat.zero_mul]; exact (congrArg sheetValid h).trans hv)

/-- A device that holds the sheet as its present copy. -/
theorem sheet_present : ∃ s : State, s.presentSheet = sheet ∧ s.sheetInForce ≠ none ∧ s.sys.porst = true :=
  ⟨_, holds_present sheet sheet_length sheet_valid.1⟩

/-- Memory of one channel, contiguous: band 0 of order 2. -/
def flat (m : Mem) : State :=
  { (s0.put F.MEM_BAND_en 1).put F.MEM_BAND_order 2 with dram := m, mem := { s0.mem with training := false, bands := [(0, 2 ^ 256 - 1)] } }

theorem flat_place (m : Mem) (pa : Nat) (h : pa < 65536) : (flat m).tileBase pa = some (512 * (pa / 512)) := by
  have en : (flat m).get F.MEM_BAND_en 0 0 = 1 := by change (flat []).get F.MEM_BAND_en 0 0 = 1; decide +kernel
  have od : (flat m).get F.MEM_BAND_order 0 0 = 2 := by change (flat []).get F.MEM_BAND_order 0 0 = 2; decide +kernel
  have bd : (flat m).mem.bands.getD 0 0 = 2 ^ 256 - 1 := by change (flat []).mem.bands.getD 0 0 = 2 ^ 256 - 1; decide +kernel
  have ck : (flat m).chanOk 0 = true := by change (flat []).chanOk 0 = true; decide +kernel
  have b0 : pa / 2 ^ 34 = 0 := by omega
  have o0 : pa % 2 ^ 34 = pa := by omega
  have c0 : pa / 2 ^ 26 = 0 := by omega
  have u0 : pa % 2 ^ 26 = pa := by omega
  have t0 : (2 ^ 256 - 1).testBit 0 = true := by decide +kernel
  have p : (flat m).tilePlace pa = some (0, pa / 512) := by
    unfold State.tilePlace
    simp only [b0, o0, en, od, bd, c0, u0, t0]
    have : ¬ pa / 512 ≥ 3121152 := by omega
    simp [this]
  unfold State.tileBase
  rw [p]
  simp [ck, dramNo]

theorem flat_rdFrom (m : Mem) : ∀ (k pa n : Nat), pa + n ≤ 65536 → n ≤ k * 512 - pa % 512 → 0 < k →
    (flat m).rdFrom k pa n = Mem.gets dflt m pa n := by
  have split : ∀ (i a j : Nat), Mem.gets dflt m a (i + j) = Mem.gets dflt m a i ++ Mem.gets dflt m (a + i) j := by
    intro i
    induction i with
    | zero => intro a j; simp [Mem.gets]
    | succ i ih => intro a j; rw [Nat.succ_add, Mem.gets, Mem.gets, ih, Nat.add_right_comm, List.cons_append]; rfl
  intro k
  induction k with
  | zero => intro pa n _ _ h; omega
  | succ k ih =>
    intro pa n h1 h2 _
    unfold State.rdFrom
    by_cases n0 : n = 0
    · subst n0
      simp only [Nat.zero_min, State.rdTile]
      cases h : (flat m).tileBase pa <;> simp [Mem.gets]
    have e : (flat m).rdTile pa (min n (512 - pa % 512)) = Mem.gets dflt m pa (min n (512 - pa % 512)) := by
      unfold State.rdTile
      rw [flat_place m pa (by omega)]
      show Mem.gets dflt (flat m).dram (512 * (pa / 512) + pa % 512) _ = _
      rw [Nat.div_add_mod]
      rfl
    simp only [e]
    by_cases hn : n ≤ min n (512 - pa % 512)
    · have : min n (512 - pa % 512) = n := by omega
      simp [this]
    · have hm : min n (512 - pa % 512) = 512 - pa % 512 := by omega
      rw [if_neg hn, hm, ih _ _ (by omega) (by have : (pa + (512 - pa % 512)) % 512 = 0 := by omega
                                               omega) (by omega), ← split]
      congr 1
      omega

theorem holds_in_dram (b : List Byte) (hl : b.length = 65536) : let s := flat (Mem.sets dflt [] 0 b)
    s.rd 0 65536 = b ∧ s.sys.datum = none ∧ s.datumAddr 0 = true ∧ s.admits m0 := by
  refine ⟨?_, rfl, ?_, ?_⟩
  · unfold State.rd
    rw [flat_rdFrom _ _ _ _ (by omega) (by omega) (by omega)]
    have h := Mem.gets_sets (d := dflt) (m := []) (by decide) 0 b
    rw [hl] at h
    exact h
  · change (flat []).datumAddr 0 = true; decide +kernel
  · change (flat []).admits m0; unfold State.admits; decide +kernel

/-- A program has placed the sheet in DRAM, for PWR_DATUM_CMD. -/
theorem sheet_in_dram : ∃ s : State, s.rd 0 65536 = sheet ∧ s.sys.datum = none ∧ s.datumAddr 0 = true ∧ s.admits m0 :=
  ⟨_, holds_in_dram sheet sheet_length⟩

/-- A flash image of no payload: the header of 18 R409 with version `v`. -/
def img (v : Nat) : List Byte := leBytes 4 0x4C42494D ++ leBytes 4 1 ++ leBytes 4 v ++ leBytes 4 0 ++ List.replicate 496 0

/-- The device with a flash. -/
def withFlash (m : Mem) : State := { s0 with flash := m }

/-- The device with image `v` at a chip select, and the header of version 7 alone at the other. -/
def boots (cs v : Nat) : State :=
  withFlash (Mem.sets erased (Mem.sets erased [] ((1 - cs) * 2 ^ 32) ((img 7).take 16)) (cs * 2 ^ 32 + 0 + 0) (img v))

theorem gets_sets_ne {d : Byte} {m : Mem} (hw : Mem.wf d m = true) (a : Nat) (bs : List Byte) : ∀ (n x : Nat),
    (x + n ≤ a ∨ a + bs.length ≤ x) → Mem.gets d (Mem.sets d m a bs) x n = Mem.gets d m x n := by
  intro n
  induction n with
  | zero => intro x _; rfl
  | succ n ih => intro x h; rw [Mem.gets, Mem.gets, ih _ (by omega), Mem.get_sets_ne bs hw (by omega)]

theorem image_of (m : Mem) (b : List Byte) (cs : Nat) (hw : Mem.wf erased m = true) (hl : b.length = 512) :
    (withFlash (Mem.sets erased m (cs * 2 ^ 32 + 0 + 0) b)).imageBytes 0 512 (.flash cs 0) = b := by
  have h := Mem.gets_sets hw (cs * 2 ^ 32 + 0 + 0) b
  rw [hl] at h
  exact h

theorem image_beside (m : Mem) (b : List Byte) (cs : Nat) (h : cs ≤ 1) (hw : Mem.wf erased m = true) (hl : b.length = 512) :
    (withFlash (Mem.sets erased m (cs * 2 ^ 32 + 0 + 0) b)).imageBytes 0 512 (.flash (1 - cs) 0) =
      Mem.gets erased m ((1 - cs) * 2 ^ 32 + 0 + 0) 512 :=
  gets_sets_ne hw _ _ _ _ (by rw [hl]; omega)

theorem img_length (v : Nat) : (img v).length = 512 := by
  have h : ∀ k n, (leBytes k n).length = k := by
    intro k
    induction k with
    | zero => intro n; rfl
    | succ k ih => intro n; rw [leBytes, List.length_cons, ih]
  simp only [img, List.length_append, List.length_replicate, h]

theorem boots_image (cs v : Nat) : (boots cs v).imageBytes 0 512 (.flash cs 0) = img v :=
  image_of _ _ _ (Mem.wf_sets _ (by decide) _) (img_length v)

/-- The other chip select holds the header of version 7. -/
theorem boots_other (v : Nat) : (boots 1 v).bootVersion 0 = some 7 ∧ (boots 0 v).bootVersion 1 = some 7 := by
  have e : ∀ cs, cs ≤ 1 → (boots cs v).imageBytes 0 512 (.flash (1 - cs) 0) =
      Mem.gets erased (Mem.sets erased [] ((1 - cs) * 2 ^ 32) ((img 7).take 16)) ((1 - cs) * 2 ^ 32 + 0 + 0) 512 :=
    fun cs h => image_beside _ _ _ h (Mem.wf_sets _ (by decide) _) (img_length v)
  constructor
  · unfold State.bootVersion
    rw [show (0 : Nat) = 1 - 1 from rfl, e 1 (by decide)]
    decide +kernel
  · unfold State.bootVersion
    rw [e 0 (by decide)]
    decide +kernel

theorem boots_own (cs : Nat) : (boots cs 7).bootVersion cs = some 7 ∧ (boots cs 8).bootVersion cs = some 8 := by
  unfold State.bootVersion
  rw [boots_image, boots_image]
  decide +kernel

theorem first_of (s : State) (b : Nat) (h0 : s.bootVersion 0 = some 7) (h1 : s.bootVersion 1 = some b) (h : b = 7 ∨ b = 8) :
    s.bootFirst = b - 7 := by
  unfold State.bootFirst; rw [h0, h1]; rcases h with h | h <;> subst h <;> rfl

theorem boots_first : (boots 1 8).bootFirst = 1 ∧ (boots 0 7).bootFirst = 0 :=
  ⟨first_of _ 8 (boots_other 8).1 (boots_own 1).2 (.inr rfl), first_of _ 7 (boots_own 0).1 (boots_other 7).2 (.inl rfl)⟩

theorem ok_of (s : State) (src : ImageSrc) (hk : ∀ k, Config.sha384 k = Config.fuseHash) (he : ∀ k d g, Config.ecdsaOk k d g = true)
    (hh : headerOk (s.imageBytes 0 512 src) = true) : s.imageOk src = true := by
  simp [State.imageOk, hk, he, hh]

theorem not_ok_of (s : State) (src : ImageSrc) (hh : headerOk (s.imageBytes 0 512 src) = false) : s.imageOk src = false := by
  simp [State.imageOk, hh]

theorem image_verifies (cs v : Nat) (hk : ∀ k, Config.sha384 k = Config.fuseHash) (he : ∀ k d g, Config.ecdsaOk k d g = true)
    (hh : headerOk (img v) = true) : (boots cs v).imageOk (.flash cs 0) = true :=
  ok_of _ _ hk he (by rw [boots_image]; exact hh)

theorem hyps_ClusterCommandsHoldLoadRun (hk : ∀ k, Config.sha384 k = Config.fuseHash) (he : ∀ k d g, Config.ecdsaOk k d g = true) :
    (s0.admits (.ctl 11) ∧ mayCommand 3 (.ctl 11) = true ∧ (s0.cluster 3).load = none ∧ (s0.cluster 3).held = true) ∧
    (let s := s0.setCluster 0 ⟨false, true, 0, none⟩
     s.admits (.ctl 11) ∧ (s.cluster 3).load = none ∧ (∃ j, j < 4 ∧ j ≠ 3 ∧ (s.cluster j).held = false)) ∧
    s0.imageAddr (.flash 1 (2 ^ 32 - 512)) = true ∧ live.imageAddr (.dram 0) = true ∧
    (let s := s0.setCluster 3 ⟨true, true, 0, none⟩
     (s.cluster 3).held = true ∧ (s.cluster 3).image = true ∧ (s.cluster 3).load = none) ∧
    (let s := (boots 0 7).setCluster 3 ⟨true, false, 0, some ⟨2, 1, 0, 0, 0, none⟩⟩
     (s.cluster 3).load = some ⟨2, 1, 0, 0, 0, none⟩ ∧ (boots 0 7).imageOk (.flash 0 0) = true ∧ s0.imageOk (.flash 0 0) = false) := by
  refine ⟨?_, ⟨?_, ?_, ⟨0, ?_⟩⟩, ?_, ?_, ?_, ?_, image_verifies 0 7 hk he (by decide +kernel), not_ok_of _ _ (by decide +kernel)⟩
  all_goals first | (unfold State.admits; decide +kernel) | decide +kernel

theorem hyps_ResetsLeaveTheirState :
    s0.sys.porst = false ∧ SMap.rising s0.regs = true ∧ SMap.rising owned.regs = true ∧
    ({ s0 with sys := { s0.sys with porst := true } } : State).sys.porst = true := by decide +kernel

theorem hyps_StartUpBootsAnImage (hk : ∀ k, Config.sha384 k = Config.fuseHash) (he : ∀ k d g, Config.ecdsaOk k d g = true) :
    ({ s0 with sys := { s0.sys with porst := true } } : State).sys.porst = true ∧
    (s0.sys.porst = false ∧ ({ s0 with sys := { s0.sys with sysrst := true } } : State).sys.sysrst = true) ∧
    (s0.inReset = false ∧ s0.sys.bootDone = false ∧ s0.sys.bootTried < 2 ∧ s0.sys.bootTried = 0) ∧
    ((boots 1 8).bootFirst = 1 ∧ (boots 1 8).imageOk (.flash 1 0) = true) ∧ ((boots 0 7).bootFirst = 0 ∧ (boots 0 7).imageOk (.flash 0 0) = true) ∧
    (s0.imageOk (.flash 0 0) = false ∧ s0.bootFirst = 0) ∧
    (let s : State := { s0 with sys := { s0.sys with bootTried := 1 } }
     s.sys.bootTried = 1 ∧ s.bootFirst = 0 ∧ (1 - s.bootFirst = 1)) ∧ s0.imageOk (.flash 1 0) = false ∧
    s0.bootVersion 0 = none ∧ (boots 1 8).bootVersion 0 = some 7 ∧ (boots 1 8).bootVersion 1 = some 8 ∧
    (s0.sys.tripped = false ∧ s0.sys.pcie.length = 2) := by
  refine ⟨?_, ?_, ?_, ⟨(boots_first).1, image_verifies 1 8 hk he (by decide +kernel)⟩, ⟨(boots_first).2, image_verifies 0 7 hk he (by decide +kernel)⟩,
    ⟨not_ok_of _ _ (by decide +kernel), ?_⟩, ?_, not_ok_of _ _ (by decide +kernel), ?_, (boots_other 8).1, (boots_own 1).2, ?_⟩ <;> decide +kernel

theorem hyps_AliveRailsAndPowerFail :
    (s0.admits m0 ∧ s0.dark = false) ∧
    (let s := s0.put F.PWR_BOOT_STAT_result 3
     s.admits m0 ∧ s.dark = true) ∧
    (let s : State := State.at_ { s0 with sys := { s0.sys with aliveOn := true } } (10 ^ 6)
     s.sys.aliveOn = true ∧ s.sys.aliveAt + 500000 ≤ s.upNs) ∧
    (let s : State := (State.at_ { s0 with sys := { s0.sys with aliveOn := true } } (10 ^ 6)).put F.PWR_ALIVE_alive_ms 1
     s.kickMet = false ∧ s.sys.aliveOn = true ∧ s.sys.kickAt + max 1 (s.get F.PWR_ALIVE_alive_ms) * 10 ^ 6 ≤ s.upNs) ∧
    ({ s0 with pending := [.aliveKick m0 0x8000000000000001] } : State).kickMet = true ∧
    ((s0.put F.LOG_FLASH_en 1).flag F.LOG_FLASH_en = true ∧ (s0.put F.LOG_FLASH_en 1).unflushed ≠ 0 ∨ s0.flag F.LOG_FLASH_en = false) ∧
    (let s : State := State.at_ { s0 with sys := { s0.sys with twinAt := some 0 } } (3 * 10 ^ 6)
     s.sys.twinAt = some 0 ∧ 0 + 3 * 10 ^ 6 ≤ s.upNs) ∧
    (let s : State := { s0.put F.PWR_RAIL_en 1 0 7 with sys := { s0.sys with misses := [(7, 2)] } }
     (∀ k, k < 8 → s.flag F.PWR_RAIL_en 0 k = decide (k = 7)) ∧
     ([none, none, none, none, none, none, none, some (65535, 0)] : List (Option (Nat × Nat)))[7]? = some (some (65535, 0)) ∧
     s.sys.misses.getD 7 0 = 2) ∧
    (let s : State := { s0.put F.PWR_MEAS_vcore_mv 800 with sys := { s0.sys with bootDone := true } }
     s.sys.bootDone = true ∧ 650 ≤ s.get F.PWR_MEAS_vcore_mv ∧ s.get F.PWR_MEAS_vcore_mv ≤ 800 ∧ 800 ≤ 795 + 5 ∧ 795 ≤ 800 + 5) ∧
    s0.sys.bootDone = false := by
  unfold State.admits; decide +kernel

theorem hyps_PowerEstimatesAndHeatLowerTheCap :
    (1 < 2 ^ 16 ∧ 0 < 1) ∧
    (s0.get F.PWR_THERM_warn_c < 114 ∧ s0.sys.warm = false) ∧
    (let s : State := State.at_ { s0 with sys := { s0.sys with warm := true, capWork := 15 } } (10 ^ 6)
     s.sys.warm = true ∧ s.get F.PWR_THERM_warn_c ≤ 115 + 5 ∧ s.sys.capAt + 10 ^ 6 ≤ s.upNs ∧ s.sys.capWork < 16 ∧
     0 + 5 < s.get F.PWR_THERM_warn_c) ∧
    (115 ≤ 115 ∧ s0.sys.tripped = false) ∧
    (State.at_ (s0.setReg .PWR_GATE_STN1 (1 <<< 63)) (10 ^ 9)).mayGate .station 127 = true ∧
    (State.at_ (s0.setReg .PWR_GATE_VCC (1 <<< 63)) (10 ^ 9)).mayGate .codec 63 = true ∧
    (let s : State := { s0.put F.DIS_STN_STATE_state 4 0 127 with dis := { s0.dis with tasks := [⟨512, 0, 0, 0, 0, .slot 511⟩] } }
     s.get F.DIS_STN_STATE_state 0 127 = 4 ∧ (s.slotOf (4 * 127 + 3)).isSome = true) ∧
    (let s : State := { ((s0.put F.VCC_STATUS_state 7 63).put F.VCC_JOBQ_en 1 63 3).put F.VCC_JOBQ_queue 9 63 3 with
                        queues := [(9, fq [[0, 0]])] }
     s.get F.VCC_STATUS_state 63 = 7 ∧ s.flag F.VCC_JOBQ_en 63 3 = true ∧ (s.headJob (s.get F.VCC_JOBQ_queue 63 3)).isSome = true) := by
  decide +kernel

/-- A meridian state: 1 is LOCKED, 2 HOLDOVER. -/
def clock (st : Nat) : State := s0.put F.MTB_STATUS_state st

/-- Locked, behind its source by one unit, with an absorb rate: the phase term is held back by the limit and stops at remain. -/
theorem hyps_CycleFollowsPseudocode :
    (let s : State := { (clock 1).put F.MTB_PHASE_ADJ_absorb_ppb 1 with mtb := { (State.at_ s0 1).mtb with remain := 1 } }
     (-65536 * 10 ^ 9 : Int) < s.mtb.trim ∧ (s.mtb.remain.natAbs ≤ s.mtb.time ∧ s.mtb.remain.natAbs ≤ s.mtb.up) ∧
     ¬ s.get F.MTB_STATUS_state = 2 ∧ (65536 * (s.get F.MTB_SLEW_LIMIT_slew_ppb : Nat) : Nat) < 65536 * 10 ^ 9) ∧
    (clock 2).get F.MTB_STATUS_state = 2 ∧ (s0.mtb.remain.natAbs ≤ s0.mtb.time ∧ s0.mtb.remain.natAbs ≤ s0.mtb.up) := by
  decide +kernel

theorem hyps_ClockStatesAndSet :
    (∀ st, st ≤ 2 → (clock st).get F.MTB_STATUS_state = st) ∧ s0.admits m0 ∧
    (bit ((0x80 : Reg64) ||| 1) 0 = true ∧ bit ((0x80 : Reg64) ||| 1) 7 = true ∧ bit ((0 : Reg64) ||| 2) 1 = true ∧ bit ((0 : Reg64) ||| 4) 2 = true ∧
      bit ((0 : Reg64) ||| 1) 7 = false ∧ bit ((0 : Reg64) ||| 1) 1 = false) ∧
    (-(2 ^ 39) : Int) ≤ s0.mtb.trim ∧ (-(2 ^ 39) : Int) ≤ ({ s0 with mtb := { s0.mtb with trim := -(2 ^ 39) } } : State).mtb.trim ∧
    (s0.get F.MTB_STATUS_state = 0 ∧ s0.get F.MTB_STATUS_step_used = 0 ∧ s0.get F.MTB_CTRL_run = 0 ∧
      fld (BitVec.ofNat 64 (999999999 * 2 ^ 32)) 63 32 < 10 ^ 9) ∧
    ¬ fld (BitVec.ofNat 64 (10 ^ 9 * 2 ^ 32)) 63 32 < 10 ^ 9 ∧ ¬ (clock 1).get F.MTB_STATUS_state = 0 := by
  unfold State.admits; decide +kernel

theorem hyps_HoldoverLearningAndOscillator :
    (let s := State.at_ (((clock 1).put F.MTB_HOLD_auto 1).put F.MTB_HOLD_timeout_ms 1) (10 ^ 6)
     s.watchdogMet = false ∧ s.get F.MTB_STATUS_state = 1 ∧ s.flag F.MTB_HOLD_auto = true ∧ s.mtb.vernierAt + s.get F.MTB_HOLD_timeout_ms * 10 ^ 6 ≤ s.upNs ∧
     (∀ e ∈ s.log.capture, e.code ≠ 0x0103) ∧ s.log.capture.length < 16) ∧
    (let s := State.at_ ((clock 1).put F.MTB_CTRL_learn_en 1) (10 ^ 9)
     s.get F.MTB_STATUS_state = 1 ∧ s.flag F.MTB_CTRL_learn_en = true ∧ s.mtb.learnedSec ≠ s.nanos / 10 ^ 9 ∧ s.mtb.learnSkip = false) ∧
    (s0.put F.MTB_CTRL_osc_sel 1).flag F.MTB_CTRL_osc_sel = true ∧
    (s0.admits m0 ∧ (0x100 : Reg64) &&& 0x87 = 0 ∧ s0.get F.MTB_STATUS_state = 0 ∧ bit (0x100 : Reg64) 8 = true) := by
  unfold State.admits; decide +kernel

theorem hyps_RastersAndPulses :
    (s0.admits m0 ∧ s0.flag F.MTB_RASTER_RATE_en 0 7 = false ∧ s0.rasterLegal 7 0 0 = false) ∧
    (s0.reaches (.ctl 15) = true ∧ 15 < 16) ∧
    (let s := State.at_ (s0.put F.MTB_PPS_out_en 1) (10 ^ 9)
     s.dark = false ∧ s.flag F.MTB_PPS_out_en = true ∧ s.mtb.ppsSec ≠ s.nanos / 10 ^ 9) ∧
    ({ s0 with sys := { s0.sys with tripped := true } } : State).dark = true ∧
    (let u := State.at_ s0 100
     let s : State := { u with mtb := { u.mtb with ppsOut := true, ppsFall := 100 } }
     s.mtb.ppsOut = true ∧ s.mtb.ppsFall ≤ s.upNs) ∧
    (let s := State.at_ (s0.put F.MTB_PPS_in_en 1) 7
     s.flag F.MTB_PPS_in_en = true ∧ s.mtb.ppsIn = none) ∧
    (let u := State.at_ s0 (500 * 10 ^ 6 - 1)
     let s : State := { u with mtb := { u.mtb with ppsIn := some 0 } }
     s.mtb.ppsIn = some 0 ∧ s.upNs < 0 + 500 * 10 ^ 6) := by
  unfold State.admits; decide +kernel

/-- Entry 4095 armed with an action for the m-time `at_`. -/
def armed (action at_ : Nat) : State :=
  ((s0.put F.MTB_TRN_CTRL_en 1 0 4095).put F.MTB_TRN_ACT_action action 0 4095).put F.MTB_TRN_WHEN_at at_ 0 4095

/-- Entries 0 and 1 armed for 199 ns. -/
def low (action : Nat) : State :=
  let a (s : State) (i : Nat) : State := ((s.put F.MTB_TRN_CTRL_en 1 0 i).put F.MTB_TRN_ACT_action action 0 i).put F.MTB_TRN_WHEN_at 199 0 i
  a (a s0 0) 1

/-- Entry 4095 of raster kind, every 5th frame of raster 7 of 50 Hz. -/
def framed50 (action : Nat) : State :=
  ((((armed action 0).put F.MTB_TRN_CTRL_kind 1 0 4095).put F.MTB_RASTER_RATE_num 50 0 7).put F.MTB_RASTER_RATE_den 1 0 7).put F.MTB_RASTER_RATE_en 1 0 7
    |>.put F.MTB_TRN_CTRL_raster 7 0 4095 |>.put F.MTB_TRN_CTRL_every_n 5 0 4095 |>.put F.MTB_RASTER_GEOM_lines 1 0 7 |>.put F.MTB_CTRL_run 1

/-- A firing of entry 4095 on its way behind one of entry 5 with another trigger. -/
def fired (action : Nat) (late : Bool) : State :=
  { s0 with mtb := { s0.mtb with firings := [⟨5, action, 0, 7, true⟩, ⟨4095, action, 0, 0, late⟩] } }

/-- Entry 4095's message has left. -/
def left_ (f : Firing) : State := { s0 with mtb := { s0.mtb with trn := [(4095, { s0.aux 4095 with sent := some f })] } }

/-- Entry 4095 past when it was written. -/
def pastOne (s : State) : State := { s with mtb := { s.mtb with trn := [(4095, { s.aux 4095 with past := true })] } }

theorem hyps_TransitsFireAndApplyOnce :
    (s0.admits m0 ∧ s0.flag F.MTB_TRN_CTRL_kind 0 4095 = false ∧ s0.flag F.MTB_TRN_CTRL_en 0 4095 = false ∧
      (framed50 0).flag F.MTB_TRN_CTRL_kind 0 4095 = true) ∧
    (∀ a ∈ [1, 2, 4, 5], let s := low a
      (s.aux 0).sent = none ∧ messaged (s.get F.MTB_TRN_ACT_action 0 0) = true ∧ s.nextTrigger 0 = some (199, none) ∧
      s.flag F.MTB_TRN_CTRL_en 0 0 = true ∧ s.flag F.MTB_TRN_CTRL_kind 0 0 = false ∧
      s.ahead 199 false ≤ s.get F.MTB_TRANSIT_LEAD_lead_ns ∧ 10 ≤ s.credit ∧ s.lowerWaits 0 (199 % 2 ^ 64) = false) ∧
    (let s := low 1
     (s.aux 1).sent = none ∧ s.nextTrigger 1 = some (199, none) ∧ s.lowerWaits 1 (199 % 2 ^ 64) = true) ∧
    (let s := (armed 1 199).put F.MTB_TRANSIT_LEAD_lead_ns 198
     s.nextTrigger 4095 = some (199, none) ∧ s.get F.MTB_TRANSIT_LEAD_lead_ns < s.ahead 199 false) ∧
    (∀ a ∈ [0, 3], let s := State.at_ (armed a 5) 5
      (s.aux 4095).sent = none ∧ messaged (s.get F.MTB_TRN_ACT_action 0 4095) = false ∧ s.nextTrigger 4095 = some (5, none) ∧
      s.due 5 none = true ∧ s.dark = false ∧ s.get F.MTB_TRN_CTRL_period_us 0 4095 * 1000 = 0) ∧
    (let s := pastOne ((armed 3 5).put F.MTB_TRN_CTRL_period_us 1 0 4095)
     s.nextTrigger 4095 = some (5, none) ∧ (s.aux 4095).past = true ∧ s.get F.MTB_TRN_CTRL_period_us 0 4095 * 1000 ≠ 0) ∧
    (let s := framed50 0
     (s.aux 4095).sent = none ∧ messaged (s.get F.MTB_TRN_ACT_action 0 4095) = false ∧ s.nextTrigger 4095 = some (0, some 0) ∧ s.due 0 (some 0) = true) := by
  unfold State.admits; decide +kernel

theorem hyps_TransitsFireAndApplyOnce_messages :
    (let f : Firing := ⟨4095, 4, 0, 9, true⟩
     ((left_ f).aux 4095).sent = some f ∧ f.late = true) ∧
    (let f : Firing := ⟨4095, 4, 0, 0, false⟩
     ((left_ f).aux 4095).sent = some f ∧ (left_ f).reached f.trigger = true) ∧
    (let f : Firing := ⟨4095, 4, 0, 9, false⟩
     ((left_ f).aux 4095).sent = some f ∧ f.late = false ∧ (left_ f).reached f.trigger = false) ∧
    (let s : State := { s0 with mtb := { s0.mtb with frameOut := [(3, 0)] } }
     s.mtb.frameOut.get? 3 = some 0 ∧ 0 ≤ s.upNs) ∧
    (∀ a ∈ [1, 2, 4, 5], ∀ l ∈ [true, false], let s := fired a l; let f : Firing := ⟨4095, a, 0, 0, l⟩
      s.mtb.firings = [⟨5, a, 0, 7, true⟩] ++ f :: [] ∧ (∀ g ∈ [(⟨5, a, 0, 7, true⟩ : Firing)], g.entry ≠ 4095 ∨ g.action ≠ f.action) ∧
      (f.late = true ∨ s.reached f.trigger = true) ∧ (∀ g ∈ s.mtb.firings, ¬ (g.trigger = f.trigger ∧ g.entry < f.entry)) ∧
      atOrAfter s.mtb.tickAt f.trigger = true ∧ atOrAfter s.mtb.tickAt 1 = false) := by decide +kernel

/-- A message of domain 0. -/
def ptpMsg44 (kind : Byte) : List Byte := kind :: List.replicate 43 0

theorem hyps_PtpAnswersInHardware :
    let s := ((s0.put F.MTB_PTP_PORT_role 1 0 511).put F.MTB_PTP_PORT_p2p 1 0 511).put F.MTB_CTRL_domain 0
    s.get F.MTB_PTP_PORT_role 0 511 = 1 ∧ s.ptpSends 511 = true ∧
    (State.at_ s (2 * 10 ^ 9)).mtb.syncAt.getD 511 0 ≠ (State.at_ s (2 * 10 ^ 9)).nanos / s.syncPeriod 511 ∧
    44 ≤ (ptpMsg44 1).length ∧ s.ptpAnswers 511 (ptpMsg44 1) = true ∧ s.ptpAnswers 511 (ptpMsg44 2) = true ∧
    s.flag F.MTB_PTP_PORT_p2p 0 511 = true := by decide +kernel

/-- A task of account 5 in list 63, ready, in a slot, or running on core 511. -/
def held (p : Place) : State := { s0 with dis := { s0.dis with tasks := [⟨0x10000, 63, 5, 9, 0, p⟩] } }

theorem hyps_ChargesExhaustAccounts :
    (4095 < 4096 ∧ 3 < 4) ∧
    ({ s0 with dis := { s0.dis with news := [(5, true), (5, false)] } } : State).dis.news = [] ++ (5, true) :: [(5, false)] ∧
    ((s0.dis.heard.find? (fun e => e.1 == Agent.core 0)).map (·.2)).getD 0 = 0 ∧
    ((s0.dis.heard.find? (fun e => e.1 == Agent.core 0)).map (·.2)).getD 0 ≤ s0.dis.news.length := by decide +kernel

theorem hyps_TicksRenewAccounts :
    s0.tickDue = false ∧
    (let s := State.at_ s0 (10 ^ 9)
     s.tickDue = true ∧ s.acctsInUse = [] ∧ s.dis.tasks = [] ∧ s.dis.sets = [] ∧ s.vcc = []) ∧
    (let s := State.at_ { held .ready with vcc := [(63, s0.vccOf 63)], dis := { s0.dis with accts := [(4095, s0.acct 4095)] } } (10 ^ 9)
     s.tickDue = true ∧ 4095 ∈ s.acctsInUse ∧ (∀ a ∈ s.acctsInUse, a < 4096) ∧ (∀ e ∈ s.vcc, e.1 < 64)) := by decide +kernel

/-- List 63 enabled, over all stations. -/
def listed : State := (live.put F.DIS_LIST_CFG_en 1 0 63).put F.DIS_LIST_CFG_cap 1 0 63

/-- A record at 0x10000 whose task runs in list 63. -/
def recorded : State := listed.setWord 0x10000 (BitVec.ofNat 128 (63 * 2 ^ 46))

theorem hyps_ReadyTasksAreHeldOrCancelled :
    (recorded.memOk ∧ 0x10000 % 512 = 0 ∧ recorded.tileBase 0x10000 ≠ none ∧ fld (recorded.word 0x10000) 51 46 = 63 ∧
      recorded.flag F.DIS_LIST_CFG_en 0 63 = true ∧
      (recorded.dis.tasks.filter (fun t => t.list == 63)).length < recorded.get F.DIS_LIST_CFG_cap 0 63 ∧
      fld (recorded.word (0x10000 + 32)) 127 124 ≠ 1) ∧
    s0.flag F.DIS_LIST_CFG_en 0 0 = false ∧
    (let s := recorded.setCore 543 { Core.cold with ops := [.tready 0x10000, .tcancel 0x20000] }
     (s.core 543).ops.find? (fun o => o.dest == 32) = some (.tready 0x10000)) ∧
    (let s := recorded.setCore 543 { Core.cold with ops := [.tcancel 0x10000, .tready 0x20000] }
     (s.core 543).ops.find? (fun o => o.dest == 32) = some (.tcancel 0x10000)) ∧
    (let s := (recorded.setCore 543 { Core.cold with ops := [.tready 0x10000] }).setCore 0 { Core.cold with ops := [.tcancel 0x10000] }
     543 ≠ 0 ∧ (s.core 543).ops = [.tready 0x10000] ∧ (s.core 0).ops = [.tcancel 0x10000] ∧
     (∀ e ∈ s.cores, e.1 ≠ 543 → e.2.ops.contains (.tready 0x10000) = false) ∧
     s.dis.tasks.find? (fun t => t.record == 0x10000) = none) ∧
    (∀ p ∈ [Place.ready, .slot 511, .running 511],
      (held p).dis.tasks.find? (fun t => t.record == 0x10000) = some ⟨0x10000, 63, 5, 9, 0, p⟩) ∧
    (s0.dis.tasks.find? (fun t => t.record == 0x10000) = none ∧ (∀ e ∈ s0.cores, e.2.ops.contains (.tready 0x10000) = false)) := by
  unfold State.memOk; decide +kernel

/-- Two ready tasks with deadlines `a` and `b` and account priorities in descending account order. -/
def two (a b pa pb : Nat) : State :=
  { listed.put F.DIS_CTRL_en 1 with dis := { s0.dis with
    accts := [(1, { (s0.acct 1) with prio := pa }), (2, { (s0.acct 2) with prio := pb })],
    tasks := [⟨0x10000, 63, 1, a, 0, .ready⟩, ⟨0x20000, 63, 2, b, 1, .ready⟩] } }

/-- List 63 serves core 3 of station 127 alone. -/
def one : State := ((two 1 2 0 0).setReg .DIS_LIST_STN1 (1 <<< 63) 0 63).put F.DIS_LIST_CFG_cores 8 0 63

theorem hyps_TasksAreDispatchedRunAndEnded :
    (let s := one
     let x : Task := ⟨0x10000, 63, 1, 1, 0, .ready⟩
     s.flag F.DIS_CTRL_en = true ∧ s.candidates.head? = some x ∧ s.coresFor x ≠ [] ∧
     (s.coresFor x).find? (fun c => (s.runningOn c).isNone && (s.slotOf c).isNone) = some 511) ∧
    (∀ p ∈ [Place.running 511, .slot 511],
      let z : Task := ⟨0x30000, 63, 3, 9, 2, p⟩
      let s : State := { one with dis := { one.dis with tasks := one.dis.tasks ++ [z] } }
      let x : Task := ⟨0x10000, 63, 1, 1, 0, .ready⟩
      s.flag F.DIS_CTRL_en = true ∧ s.candidates.head? = some x ∧ s.coresFor x = [511] ∧
      (s.coresFor x).find? (fun c => (s.runningOn c).isNone && (s.slotOf c).isNone) = none ∧
      (p = .running 511 → (s.coresFor x).find? (fun c => (s.slotOf c).isNone) = some 511) ∧
      (p = .slot 511 → (s.coresFor x).find? (fun c => (s.slotOf c).isNone) = none ∧ s.slotOf 511 = some z ∧ s.precedes x z = true)) ∧
    (∀ q ∈ [(1, 2, 0, 0), (2, 1, 0, 0), (1, 1, 1, 0), (1, 1, 0, 1), (1, 1, 0, 0)], let s := two q.1 q.2.1 q.2.2.1 q.2.2.2
     s.flag F.DIS_LIST_CFG_en 0 63 = true ∧ (s.acct 1).exhausted = false ∧ (s.acct 2).exhausted = false ∧ (s.acct 1).prio = q.2.2.1 ∧
     (s.acct 2).prio = q.2.2.2) ∧
    s0.flag F.DIS_CTRL_en = false ∧
    (let s : State := { recorded with dis := (held (.slot 511)).dis }
     s.memOk ∧ s.logicalCore (4 * 133 + 3) = some 511 ∧ s.runningOn 511 = none ∧ s.slotOf 511 = some ⟨0x10000, 63, 5, 9, 0, .slot 511⟩ ∧
     s.get F.DIS_STN_STATE_state 0 127 = 0 ∧ s.tileBase 0x10000 ≠ none ∧ bit (s.word (0x10000 + 32)) 123 = false ∧
     bit ((s.setWord (0x10000 + 32) (1 <<< 123)).word (0x10000 + 32)) 123 = true) ∧
    (let s : State := { recorded with dis := (held (.running 511)).dis }
     s.logicalCore (4 * 133 + 3) = some 511 ∧ s.slotOf 511 = none ∧ s.runningOn 511 ≠ none) ∧
    (s0.logicalCore (4 * 133 + 3) = some 511 ∧ s0.slotOf 511 = none ∧ s0.runningOn 511 = none ∧ s0.get F.DIS_STN_STATE_state 0 127 = 0 ∧
      s0.fillSlot.slotOf 511 = none) ∧
    (∀ r ∈ [0, 1], let e : TaskEnd := ⟨535, 0x10000, r, 255, 0, 2 ^ 32 - 1⟩
     let s : State := { (recorded.setWord 0x10000 (BitVec.ofNat 128 (noQueue * 2 ^ 12))) with dis := { s0.dis with ended := [e] } }
     s.memOk ∧ s.dis.ended.find? (fun x => x.core == e.core) = some e ∧ s.tileBase e.record ≠ none ∧ fld (s.word e.record) 31 12 = noQueue ∧
     e.result ≤ 1 ∧ e.value < 2 ^ 32 ∧ e.trap < 2 ^ 8) := by
  unfold State.memOk; decide +kernel

theorem hyps_StationsDrainHaltResume :
    (s0.admits m0 ∧ s0.get F.DIS_STN_STATE_state 0 127 = 0 ∧ s0.dis.tasks = [] ∧
      ((held (.running 511)).dis.tasks.map (·.record)).Nodup ∧
      (held (.running 511)).runningOn (4 * 127 + 3) = some ⟨0x10000, 63, 5, 9, 0, .running 511⟩ ∧ (held (.running 511)).dis.ended = []) ∧
    (s0.put F.DIS_STN_STATE_state 4 0 127).get F.DIS_STN_STATE_state 0 127 = 4 ∧
    (let s : State := { s0.put F.DIS_STN_STATE_state 1 0 127 with dis := (held (.running 511)).dis }
     s.get F.DIS_STN_STATE_state 0 127 = 1 ∧ s.runningOn (4 * 127 + 3) ≠ none ∧ (∀ k, k < 4 → s0.runningOn (4 * 127 + k) = none)) ∧
    (∀ k ∈ [1, 2, 3], (s0.put F.DIS_STN_STATE_state k 0 127).get F.DIS_STN_STATE_state 0 127 = k) ∧
    (let caps (t : State) : Nat := (List.range 64).foldl (fun n i => n + (if t.flag F.DIS_LIST_CFG_en 0 i then t.get F.DIS_LIST_CFG_cap 0 i else 0)) 0
     let v : Reg64 := BitVec.ofNat 64 (2 ^ 63)
     caps (listed.setReg .DIS_LIST_CFG (codedWrite RegName.DIS_LIST_CFG.info (listed.reg .DIS_LIST_CFG 0 62) v) 0 62) ≤ 65536 ∧
     (let full := (listed.put F.DIS_LIST_CFG_cap 65535 0 63)
      let w := (s0.put F.DIS_LIST_CFG_cap 65535 0 62).put F.DIS_LIST_CFG_en 1 0 62
      65536 < caps (full.setReg .DIS_LIST_CFG (codedWrite RegName.DIS_LIST_CFG.info (full.reg .DIS_LIST_CFG 0 62) (w.reg .DIS_LIST_CFG 0 62)) 0 62))) := by
  unfold State.admits; decide +kernel

/-- A device with queue 2^20 - 2 open. -/
def q9 (a : Queue) : State := { s0 with queues := [(1048574, a)] }

/-- A full F-class queue, every ring slot an item of one word. -/
def fullQ : Queue := { fq (List.replicate 16 [1]) with wr := 16 }

/-- An H-class queue with three items, one of them read, and mark 3 at the second. -/
def hq : Queue :=
  { fq [[1], [2], [3]] with cls := 2, rd := 1, marks := [⟨false, 0⟩, ⟨false, 0⟩, ⟨true, 0⟩, ⟨false, 1⟩] }

/-- 256 producers with a partial item each. -/
def crowdedQ : Queue := { fq [] with partials := List.replicate 256 (.lg 0, [5]) }

theorem hyps_ItemsAreCommittedWhole :
    (1048574 < noQueue ∧ s0.mayArrive (.lg 15) (.push 1048574 1 true) = true ∧ s0.queues.get? 1048574 = none ∧
      (∀ q ∈ [fullQ, fq [], crowdedQ], (q9 q).alone 1048574 (.qpush (.lg 15) 1048574 1 true) ∧ (q9 q).alone 1048574 (.qflush (.lg 15) 1048574) ∧
        (q9 q).alone 1048574 (.itemCommit 1048574))) ∧
    ((q9 crowdedQ).canTake (.lg 15) 1048574 = false ∧
      (let s := (q9 (fq [])).setQnode (homeNode 1048574) ⟨[], [(.lg 15, 1048574, 1, false, none)]⟩
       (s.qnode (homeNode 1048574)).waiting.any (fun e => e.1 == .lg 15) = true)) ∧
    (let a : Queue := { fq [] with dropping := [.lg 15] }
     (q9 a).queues.get? 1048574 = some a ∧ ((q9 a).qnode (homeNode 1048574)).waiting = [] ∧ a.dropping.contains (.lg 15) = true) ∧
    (∀ ws ∈ [[], [(1 : Word)], [1, 2]], let a : Queue := { fq [] with partials := [(.lg 15, ws)] }
      (q9 a).queues.get? 1048574 = some a ∧ ((q9 a).qnode (homeNode 1048574)).waiting = [] ∧
      a.dropping.contains (.lg 15) = false ∧ (byAgent a.partials (.lg 15)).isSome = true ∧
      (q9 (fq [])).partialCount (homeNode 1048574) < 256) ∧
    (∀ b ∈ [fq [], fullQ], let a : Queue := { b with ready := [⟨.lg 15, [1, 2], none⟩] }
      (q9 a).queues.get? 1048574 = some a ∧ a.wf ∧ a.ready = [⟨.lg 15, [1, 2], none⟩] ∧ a.spill = noQueue ∧ (q9 a).written .INC_QWATCH = []) ∧
    ((fq []).occ < 2 ^ (fq []).log2cap ∧ fullQ.occ = 2 ^ fullQ.log2cap ∧ fullQ.cls = 1 ∧ hq.cls ≠ 1) ∧
    (s0.deferredOn 1048574 = [] ∧ ({ q9 fullQ with pending := [.qpop (.lg 15) 1048574] } : State).pending = [.qpop (.lg 15) 1048574] ∧
      ({ q9 fullQ with mem := { s0.mem with deferred := [.itemCommit 1048574] } } : State).mem.deferred = [.itemCommit 1048574]) := by
  unfold Queue.wf State.alone; decide +kernel

/-- A core's operation, its oldest to the queue's node. -/
def sentBy (op : NetOp) (a : Queue) : State := (q9 a).setCore 543 { Core.cold with ops := [.tready 0, op] }

theorem hyps_QueuesArePoppedAndRewound :
    ((q9 (fq [])).queues.get? 1048574 = some (fq []) ∧ (q9 (fq [])).popBlocked (.lg 15) 1048574 = false ∧
      byAgent (fq []).readBufs (.lg 15) = none ∧ (fq []).unread = 0 ∧ s0.queues.get? 1048574 = none ∧ s0.popBlocked (.lg 15) 1048574 = false ∧
      (q9 (fq [])).alone 1048574 (.qpop (.lg 15) 1048574) ∧ s0.alone 1048574 (.qpop (.lg 15) 1048574)) ∧
    (∀ a ∈ [fullQ, hq], (q9 a).popBlocked (.lg 15) 1048574 = false ∧ byAgent a.readBufs (.lg 15) = none ∧ a.unread ≠ 0 ∧
      (a.head = some [1] ∨ a.head = some [2])) ∧
    (let a : Queue := { fq [] with readBufs := [(.core 543, [7])] }
     let s := sentBy (.pop 1048574) a
     s.popBlocked (.core 543) 1048574 = false ∧ byAgent a.readBufs (.core 543) = some [7] ∧ s.mayArrive (.core 543) (.pop 1048574) = true) ∧
    ((q9 hq).queues.get? 1048574 = some hq ∧ hq.cls = 2 ∧ hq.marks.length = 4 ∧ (hq.mark 3).stale = false ∧ (hq.mark 2).stale = true ∧ hq.wf) ∧
    (q9 fullQ).queues.get? 1048574 = some fullQ ∧ fullQ.cls = 1 := by
  unfold Queue.wf State.alone; decide +kernel

theorem hyps_QueuesArePoppedAndRewound_sent :
    ∀ a ∈ [hq, fullQ], ∀ k, k < 4 →
      ((q9 a).alone 1048574 (.qmark (.core 543) 1048574 k) ∧ (q9 a).alone 1048574 (.qrewind (.core 543) 1048574 k) ∧
        (q9 a).alone 1048574 (.qrelease (.core 543) 1048574 k) ∧ (q9 a).alone 1048574 (.qrelease (.core 543) 1048574 4)) ∧
      ((sentBy (.mark 1048574 k) a).mayArrive (.core 543) (.mark 1048574 k) = true ∧
       (sentBy (.rewind 1048574 k) a).mayArrive (.core 543) (.rewind 1048574 k) = true ∧
       (sentBy (.release 1048574 k) a).mayArrive (.core 543) (.release 1048574 k) = true ∧
       (sentBy (.release 1048574 4) a).mayArrive (.core 543) (.release 1048574 4) = true) := by
  unfold State.alone; decide +kernel

theorem hyps_QueueOperationsKeepForm :
    (∀ a ∈ [fullQ, hq], a.wf ∧ a.occ ≠ 0 ∧ a.unread ≠ 0) ∧ fullQ.cls = 1 ∧ hq.cls ≠ 1 ∧
    descLegal (BitVec.ofNat 128 (1 * 2 ^ 124 + 4 * 2 ^ 116 + noQueue * 2 ^ 96)) = true := by
  unfold Queue.wf; decide +kernel

/-- Queue 7 and its descriptor, at a base that lies in band 0. -/
def described : State :=
  live.setWord (live.descAddr 0 32) (BitVec.ofNat 128 (1 * 2 ^ 124 + 4 * 2 ^ 116 + noQueue * 2 ^ 96))

theorem hyps_QueueCommandsOpenAndClose :
    32 < noQueue ∧ homeNode 32 = 0 ∧ described.admits m0 ∧ (described.qnode 0).cmds = [] ∧ described.queues.get? 32 = none ∧
    descLegal (described.word (described.descAddr 0 32)) = true ∧
    (let s : State := { described with queues := [(32, fullQ)] }
     (s.queues.get? 32).isSome = true ∧ s.queues.get? 32 = some fullQ ∧ fullQ.cls = 1 ∧
     (s.qnode 0).waiting = [] ∧ s.admits m0 ∧ (s.qnode 0).cmds = []) ∧
    descLegal (live.word (live.descAddr 0 32)) = false ∧
    (let s : State := { described with queues := [(32, hq)] }
     s.queues.get? 32 = some hq ∧ hq.cls ≠ 1) ∧
    (let s := (described.setQnode 0 ⟨[], [(.lg 15, 32, 1, false, none)]⟩)
     ∀ e ∈ (s.qnode 0).waiting, e.2.1 = 32) := by
  unfold State.admits; decide +kernel

theorem hyps_AddressMapIsInjective :
    live.tilePlace 511 = some (0, 0) ∧ live.tilePlace 0 = some (0, 0) ∧ live.tilePlace (2 ^ 34 - 1) = some (254, 131071) := by decide +kernel

theorem hyps_TilesReadBackOrZero :
    (live.memOk ∧ live.tileBase (2 ^ 34 - 2) ≠ none ∧ (2 ^ 34 - 2) % 512 + 2 ≤ 512 ∧ 0 / 512 ≠ (2 ^ 34 - 2) / 512 ∧ 0 % 512 + 512 ≤ 512) ∧
    live.tilePlace (2 ^ 34) = none := by unfold State.memOk; decide +kernel

/-- A guard window over the first MiB. -/
def guard1 (s : State) : State := (s.put F.MEM_GUARD_en 1 0 31).put F.MEM_GUARD_size_mib 1 0 31

/-- A fold whose value is looked at before each step. -/
def eagerFold (f : Nat → Byte → Nat) : List Byte → Nat → Nat
  | [], a => a
  | b :: bs, a => if f a b = 0 then eagerFold f bs 0 else eagerFold f bs (f a b)

theorem eagerFold_eq (f : Nat → Byte → Nat) (bs : List Byte) (a : Nat) : bs.foldl f a = eagerFold f bs a := by
  induction bs generalizing a with
  | nil => rfl
  | cons b bs ih => simp only [List.foldl_cons, eagerFold, ih]; split <;> simp_all

theorem crc32c_zeros : crc32c (List.replicate 512 0) = 821882304 := by
  have h0 : (List.replicate 128 (0 : Byte)).foldl (crcByte 0x82F63B78) 4294967295 = 4158167844 := by rw [eagerFold_eq]; decide +kernel
  have h1 : (List.replicate 128 (0 : Byte)).foldl (crcByte 0x82F63B78) 4158167844 = 1200442991 := by rw [eagerFold_eq]; decide +kernel
  have h2 : (List.replicate 128 (0 : Byte)).foldl (crcByte 0x82F63B78) 1200442991 = 1158271177 := by rw [eagerFold_eq]; decide +kernel
  have h3 : (List.replicate 128 (0 : Byte)).foldl (crcByte 0x82F63B78) 1158271177 = 3473084991 := by rw [eagerFold_eq]; decide +kernel
  have h : List.replicate 512 (0 : Byte) = (List.replicate 128 0 ++ (List.replicate 128 0 ++ (List.replicate 128 0 ++ List.replicate 128 0))) := by rw [List.replicate_append_replicate, List.replicate_append_replicate, List.replicate_append_replicate]
  have h4 : (List.replicate 512 (0 : Byte)).foldl (crcByte 0x82F63B78) 4294967295 = 3473084991 := by
    rw [h]; simp only [List.foldl_append, h0, h1, h2, h3]
  have e : ∀ bs : List Byte, crc32c bs = bs.foldl (crcByte 0x82F63B78) 4294967295 ^^^ 4294967295 := fun _ => rfl
  exact (e _).trans (congrArg (· ^^^ 4294967295) h4)

theorem guard1_tile : (guard1 live).tile 0 = List.replicate 512 0 := by decide +kernel

theorem guard1_sums : (guard1 live).tileBase 0 = some (dramNo 0 0) ∧ (guard1 live).guarded 0 = true ∧ (guard1 live).storedSum 0 = 0 ∧
    ((guard1 live).setSum 0 821882304).storedSum 0 = 821882304 ∧ ((guard1 live).setSum 0 821882304).guarded 0 = true ∧
    ((guard1 live).setSum 0 821882304).tileBase 0 = some (dramNo 0 0) := by decide +kernel

theorem guard1_tile_summed : ((guard1 live).setSum 0 821882304).tile 0 = List.replicate 512 0 := by decide +kernel

theorem guard1_fails : (guard1 live).verifies 0 = false ∧ ((guard1 live).setSum 0 821882304).verifies 0 = true := by
  obtain ⟨a1, a2, a3, a4, a5, a6⟩ := guard1_sums
  refine ⟨?_, ?_⟩
  · simp only [State.verifies, a1, a2, a3, guard1_tile, crc32c_zeros]; decide
  · simp only [State.verifies, a4, a5, a6, guard1_tile_summed, crc32c_zeros]; decide

/-- A load whose source has a guarded tile that fails. -/
theorem hyps_StationLoadsAndDatumCommands_poisoned :
    ∃ i, i < (loadTarget 133 8).1 / 512 ∧ (guard1 live).guarded (0 + 512 * i) = true ∧ (guard1 live).verifies (0 + 512 * i) = false :=
  ⟨0, by decide, guard1_sums.2.1, guard1_fails.1⟩

theorem hyps_GuardedTilesAreChecked :
    (let s := guard1 live
     s.memOk ∧ Agent.engine 95 ≠ .hif ∧ (2 ^ 20 - 512) % 512 = 0 ∧ (List.replicate 512 (0 : Byte)).length = 512 ∧
     s.guarded (2 ^ 20 - 512) = true ∧ s.tileBase (2 ^ 20 - 512) ≠ none ∧ (List.replicate 511 (0 : Byte)).length < 512) ∧
    (0 ≠ crc32c (List.replicate 512 0) ∧ 821882304 = crc32c (List.replicate 512 0)) ∧
    (let s := guard1 live
     s.tilePlace 0 ≠ none ∧ ((0, 0) ≠ routerOf .hif ∨ TileReader.mover ≠ .other)) ∧
    ((guard1 live).verifies 0 = false ∧ ((guard1 live).setSum 0 821882304).verifies 0 = true) ∧
    (let r : CrcReport := ⟨.mover, true, 15, 15, 2 ^ 34 - 512, false⟩
     let s : State := { live with mem := { live.mem with reports := [r] } }
     s.mem.reports = [r] ∧ r.unbacked = false ∧ s.tilePlace r.addr = some (254, 131071) ∧ 254 < 256 ∧ r.gx < 16 ∧ r.gy < 16 ∧ r.addr < 2 ^ 48) ∧
    (let r : CrcReport := ⟨.other, true, 0, 0, 2 ^ 48 - 512, true⟩
     ({ s0 with mem := { s0.mem with reports := [r] } } : State).mem.reports = [r] ∧ r.unbacked = true ∧ r.addr < 2 ^ 48) ∧
    (s0.tilePlace 0 = none ∧ (0, 0) ≠ routerOf .hif) := by
  refine ⟨?_, ⟨by rw [crc32c_zeros]; decide, by rw [crc32c_zeros]⟩, by decide +kernel, guard1_fails, by decide +kernel, by decide +kernel,
    by decide +kernel⟩
  unfold State.memOk; decide +kernel

/-- Channel 255 with a state and a content. -/
def chan (st : Nat) (c : Chan) : State :=
  let s := s0.put F.MEM_CHAN_STAT_state st 31 7
  { s with mem := { s.mem with chans := [(255, c)] } }

def noReqs : Chan := ⟨[], [], [], [], [], 0, false, 0, 0⟩

theorem hyps_ChannelsServeTheirRequests :
    (let s := chan 0 { noReqs with reqs := [⟨false, 3121151⟩] }
     (s.chan 255).reqs = [⟨false, 3121151⟩] ∧ s.get F.MEM_CHAN_STAT_state 31 7 ≠ 2 ∧ (s.chan 255).retry.length < 32) ∧
    (let s := State.at_ (chan 0 { noReqs with rows := [(95, (0, 0))] }) (10 ^ 9)
     (s.chan 255).rows.get? 95 = some (0, 0) ∧ 0 + max 1 (s.get F.MEM_TIMING_page_idle_ns 31) ≤ s.upNs) ∧
    ((chan 0 { noReqs with nbr := [(95, 1)] }).chan 255).nbr = [(95, 1)] ∧
    (let s := chan 0 { noReqs with fails := 6 }
     s.upNs ≤ (s.chan 255).retryAt ∧ (s.chan 255).fails < 7) ∧
    (let s := chan 0 { noReqs with fails := 7, replaying := true }
     s.upNs ≤ (s.chan 255).retryAt ∧ 7 ≤ (s.chan 255).fails ∧ (s.chan 255).replaying = true) ∧
    (let s := State.at_ ((chan 0 noReqs).put F.MEM_TIMING_sr_idle_us 1 31) 1000
     s.get F.MEM_CHAN_STAT_state 31 7 = 0 ∧ (s.chan 255).reqs = [] ∧ s.get F.MEM_TIMING_sr_idle_us 31 ≠ 0 ∧
     (s.chan 255).lastReq + s.get F.MEM_TIMING_sr_idle_us 31 * 1000 ≤ s.upNs) ∧
    (let s := chan 2 { noReqs with reqs := [⟨true, 0⟩] }
     s.get F.MEM_CHAN_STAT_state 31 7 = 2 ∧ (s.chan 255).reqs ≠ []) ∧
    (let s := State.at_ (chan 0 noReqs) 1
     (s.chan 255).retryAt < s.upNs) := by decide +kernel

theorem hyps_BandsLatchAndChannelsTrain :
    (let s : State := { s0 with mem := { s0.mem with training := false } }
     s.admits m0 ∧ s.flag F.MEM_BAND_en 0 23 = false ∧ bit (0xC000000000000000 : Reg64) 63 = true ∧ s.mem.training = false ∧
     fld (0xC000000000000000 : Reg64) 62 61 ≠ 3 ∧ fld (0xE000000000000000 : Reg64) 62 61 = 3) ∧
    (s0.admits m0 ∧ s0.mem.training = true ∧ s0.flag F.MEM_BAND_en 0 23 = false) ∧
    (let v : Reg64 := BitVec.ofNat 64 (2 ^ 63 + live.get F.MEM_BAND_order * 2 ^ 61)
     fld v 62 61 = live.get F.MEM_BAND_order ∧ bit v 63 = true) ∧
    (live.flag F.MEM_BAND_en = true ∧ fld (0xC000000000000000 : Reg64) 62 61 ≠ live.get F.MEM_BAND_order ∧ bit (0 : Reg64) 63 = false ∧ live.admits m0) ∧
    (∀ n, n < 32 → ∀ k, k < 8 → s0.get F.MEM_CHAN_STAT_trainings n k < 0xFFFF) ∧
    (live.chanCmds 31 = [] ∧ live.inUse 255 = true ∧ s0.admits m0 ∧ s0.chanCmds 31 = [] ∧ s0.inUse 255 = false) ∧
    ({ s0 with mem := { s0.mem with retrainQ := [(31, [⟨1, 255, 7, 0, 0, some 0⟩])] } } : State).chanCmds 31 = [⟨1, 255, 7, 0, 0, some 0⟩] := by
  unfold State.admits; decide +kernel

/-- Port 31 of link group 15 enabled, with link up where asked. -/
def port (up : Nat) : State := (live.put F.LNK_PORT_CFG_en 1 15 31).put F.LNK_PORT_STAT_link up 15 31

theorem hyps_PortsEnableLinkAndSleep :
    (s0.admits m0 ∧ s0.flag F.LNK_PORT_CFG_en 15 31 = false ∧
      s0.portLegal 15 31 (BitVec.ofNat 64 (9216 * 2 ^ 36) ||| 0x8000000000000000) = true ∧
      s0.portLegal 15 31 (BitVec.ofNat 64 (9217 * 2 ^ 36) ||| 0x8000000000000000) = false) ∧
    (let s := port 1; let v := s.reg .LNK_PORT_CFG 15 31
     let new (v : Reg64) : Reg64 := codedWrite RegName.LNK_PORT_CFG.info (s.reg .LNK_PORT_CFG 15 31) v
     s.admits m0 ∧ s.flag F.LNK_PORT_CFG_en 15 31 = true ∧ 31 + lanes (s.get F.LNK_PORT_CFG_width 15 31) ≤ 32 ∧
     putFld (new (v &&& 0x7FFFFFFFFFFFFFFF)) 63 63 1 = s.reg .LNK_PORT_CFG 15 31 ∧
     putFld (new (v ||| 0x8000000000000000)) 63 63 1 = s.reg .LNK_PORT_CFG 15 31 ∧
     putFld (new (0x1000000000000000 &&& 0x7FFFFFFFFFFFFFFF)) 63 63 1 ≠ s.reg .LNK_PORT_CFG 15 31 ∧
     putFld (new (0x1000000000000000 ||| 0x8000000000000000)) 63 63 1 ≠ s.reg .LNK_PORT_CFG 15 31) ∧
    (let s : State := { port 0 with ports := { s0.ports with refclk := [(15, true)] } }
     s.flag F.LNK_PORT_CFG_en 15 31 = true ∧ s.ports.refclk.getD 15 false = true ∧ s.dark = false ∧ s.get F.LNK_PORT_STAT_link 15 31 = 0) ∧
    (s0.ports.refclk.getD 15 false = false ∧ (∀ q, q < 32 → q + lanes (s0.get F.LNK_PORT_CFG_width 15 q) ≤ 32)) ∧
    (let s := State.at_ (((port 1).put F.LNK_PORT_EEE_en 1 15 31).put F.LNK_PORT_CFG_phy 2 15 31) 10000
     s.portUp 15 31 = true ∧ s.flag F.LNK_PORT_EEE_en 15 31 = true ∧ s.lpiType 15 31 = true ∧
     s.ports.active.getD (32 * 15 + 31) 0 + max 1 (s.get F.LNK_PORT_EEE_idle_us 15 31) * 1000 ≤ s.upNs ∧
     s.newlyKnown.eventWithin 15 31 ((s.get F.LNK_PORT_EEE_tw_tx_us 15 31 + 1) * 1000) = false ∧ s.newlyKnown.legWaits 15 31 = false) ∧
    (let s := { (port 1).put F.LNK_PORT_STAT_lpi_tx 1 15 31 with ports := { s0.ports with ptp := [(511, [⟨0, 0, 0, none, []⟩])] } }
     s.flag F.LNK_PORT_STAT_lpi_tx 15 31 = true ∧ s.eventWithin 15 31 ((s.get F.LNK_PORT_EEE_tw_tx_us 15 31 + 1) * 1000) = true ∧
     s.newlyKnown.eventWithin 15 31 ((s.get F.LNK_PORT_EEE_tw_tx_us 15 31 + 1) * 1000) = true) ∧
    (port 1).flag F.LNK_PORT_STAT_lpi_tx 15 31 = false ∧ (port 0).portUp 15 31 = false := by
  unfold State.admits; decide +kernel

/-- Port 31 of link group 15 with a gate list of 2000 ns that runs. -/
def gated (mode : Nat) (next : List Nat) : State :=
  { port 1 with ports := { s0.ports with gates := [(511, ⟨true, mode, 0, 2, 2000, 0, 0, 0, 0, next, 0⟩)] } }

theorem hyps_GateListsSwitchAndCycle :
    (s0.admits m0 ∧ s0.flag F.LNK_PORT_GCTL_change 15 31 = false ∧
     (let v : Reg64 := 0; s0.gateRefused 15 31 (bit v 63) (fld v 62 62) (fld v 60 52) (fld v 31 0) = false) ∧
     (let v : Reg64 := BitVec.ofNat 64 (2 ^ 63 + 1999); s0.gateRefused 15 31 (bit v 63) (fld v 62 62) (fld v 60 52) (fld v 31 0) = true)) ∧
    (let s := s0.put F.LNK_PORT_GCTL_change 1 15 31
     s.admits m0 ∧ s.flag F.LNK_PORT_GCTL_change 15 31 = true ∧ s.switchTime 15 31 = some 0 ∧ 0 ≤ s.mtime ∧ s.switchDue 15 31 = true) ∧
    (let s := State.at_ (gated 0 []) 2000
     s.switchDue 15 31 = false ∧ (s.gate 15 31).en = true ∧ (s.gate 15 31).mode = 0 ∧ (s.gate 15 31).cycle ≠ 0 ∧
     s.reached ((s.gate 15 31).cycleAt + (s.gate 15 31).cycle) = true) ∧
    (let s := State.at_ (gated 1 [2000]) 2000
     s.switchDue 15 31 = false ∧ (s.gate 15 31).mode = 1 ∧ (s.gate 15 31).next = 2000 :: [] ∧ s.reached 2000 = true) ∧
    (let s := State.at_ (gated 0 []) 1999
     s.switchDue 15 31 = false ∧ s.reached ((s.gate 15 31).cycleAt + (s.gate 15 31).cycle) = false ∧
     (s.gate 15 31).entry + 1 < (s.gate 15 31).count ∧
     s.reached ((s.gate 15 31).entryAt + s.gateInterval 15 31 (s.gate 15 31) (s.gate 15 31).entry) = true) ∧
    s0.switchDue 15 31 = false ∧ (s0.gate 15 31).en = false := by
  unfold State.admits; decide +kernel

/-- The state a pop leaves. -/
def popped (s : State) (q : Nat) : State := ((s.popItem q).map (·.2)).getD s

theorem popped_spec (s : State) (q : Nat) (ws : List Word) (h : gives s q ws = true) : s.popItem q = some (ws, popped s q) := by
  unfold gives at h; unfold popped
  cases e : s.popItem q with
  | none => simp [e] at h
  | some x => obtain ⟨a, b⟩ := x; rw [e] at h; have h : (a == ws) = true := h; rw [beq_iff_eq] at h; subst h; rfl

/-- Link group 15 with a transmit item for launch queue 7 of port 31, of length n. -/
def sending (n : Nat) : State :=
  let s := (((port 1).put F.LNK_PORT_CFG_max_frame 1518 15 31).put F.LNK_TX_QUEUE_en 1 15).put F.LNK_TX_QUEUE_queue 9 15
  { s.put F.LNK_LT_CFG_en 1 15 255 with
    queues := [(9, fq [[BitVec.ofNat 128 (31 * 2 ^ 59 + 7 * 2 ^ 56 + n * 2 ^ 41), 0]])],
    ports := { s0.ports with lt := [(4095, [⟨1, 0, 64, 0, false, none, true, false⟩])], ptp := [(511, [⟨0, 0, 0, none, List.replicate 44 0⟩])] } }

/-- The item of `sending`, with a launch time or none. -/
def txWord (launch n : Nat) : Word := BitVec.ofNat 128 (launch * 2 ^ 64 + 31 * 2 ^ 59 + 7 * 2 ^ 56 + n * 2 ^ 41)

theorem hyps_LaunchQueuesFeedThePort :
    s0.flag F.LNK_TX_QUEUE_en 15 = false ∧
    (∀ n ∈ [1518, 1519], let s := sending n
      s.flag F.LNK_TX_QUEUE_en 15 = true ∧ gives s (s.get F.LNK_TX_QUEUE_queue 15) [txWord 0 n, 0] = true ∧ s.get F.LNK_TX_QUEUE_queue 15 = 9 ∧
      (popped s 9).get F.LNK_PORT_CFG_max_frame 15 31 = 1518) ∧
    (let w := txWord (2 ^ 64 - 1) 1518
     fld w 63 59 = 31 ∧ fld w 58 56 = 7 ∧ fld w 54 41 = 1518 ∧ fld w 127 64 ≠ 0 ∧ fld (txWord 0 1518) 127 64 = 0) ∧
    (let u := popped (sending 1518) 9
     u.portExists 15 31 = true ∧ u.flag F.LNK_LT_CFG_en 15 (8 * 31 + 7) = true ∧ u.ltCount 15 < 4096 ∧ (sending 1518).ltQueue 15 31 7 ≠ [] ∧
     (sending 1518).ltQueue 15 31 6 = [] ∧ u.flag F.LNK_LT_CFG_en 15 (8 * 31 + 6) = false ∧
     u.pastLaunch 15 31 7 ⟨1000, 0, 1518, 0, false, none, false, false⟩ = false) ∧
    (let s := sending 0; let f : LtFrame := ⟨1, 0, 64, 0, false, none, true, false⟩
     s.ltQueue 15 31 7 = [f] ∧ f.launch ≠ 0 ∧ s.reached f.launch = false ∧ (State.at_ s 1).reached f.launch = true ∧
     f.released = true ∧ f.late = false ∧ s.pastLaunch 15 31 7 f = false ∧
     (State.at_ s (10 ^ 9)).pastLaunch 15 31 7 f = true ∧ s.flag F.LNK_LT_CFG_drop_late 15 (8 * 31 + 7) = false) ∧
    (let s : State := { s0 with ports := { s0.ports with busy := [(511, 1)] } }
     s.upNs < s.ports.busy.getD (32 * 15 + 31) 0) ∧
    ((port 1).portUp 15 31 = true ∧ (port 1).choose 15 31 = none ∧ (port 1).ports.busy.getD (32 * 15 + 31) 0 ≤ (port 1).upNs ∧
      (port 1).ports.wake.getD (32 * 15 + 31) 0 ≤ (port 1).upNs ∧ (port 1).flag F.LNK_PORT_STAT_lpi_tx 15 31 = false) := by
  decide +kernel

theorem gate_idle (s : State) (lg p : Nat) (h : s.switchDue lg p = false ∧ (s.gate lg p).en = false) : s.gateEvent lg p = s := by
  unfold State.gateEvent; simp [h]

/-- A PTP message waits, with link up or down; with link up and none waiting, a released frame that its bytes travel with. -/
theorem hyps_LaunchQueuesFeedThePort_starts :
    (∀ up ∈ [0, 1], let s := (sending 0).put F.LNK_PORT_STAT_link up 15 31
      s.ports.ptp.getD (32 * 15 + 31) [] = ⟨0, 0, 0, none, List.replicate 44 0⟩ :: [] ∧ s.portUp 15 31 = decide (up = 1) ∧
      s.ports.busy.getD (32 * 15 + 31) 0 ≤ s.upNs ∧ s.ports.wake.getD (32 * 15 + 31) 0 ≤ s.upNs ∧
      s.flag F.LNK_PORT_STAT_lpi_tx 15 31 = false ∧ s.ptpReady 15 31 = true ∧ (s.switchDue 15 31 = false ∧ (s.gate 15 31).en = false)) ∧
    (let f : LtFrame := ⟨0, 0, 64, 0, false, some (List.replicate 60 0), true, false⟩
     let s : State := { port 1 with ports := { s0.ports with lt := [(4095, [f])] } }
     s.portUp 15 31 = true ∧ s.choose 15 31 = some (.launch 7) ∧ s.ltQueue 15 31 7 = f :: [] ∧ f.bytes = some (List.replicate 60 0) ∧
     (s.switchDue 15 31 = false ∧ (s.gate 15 31).en = false)) := by decide +kernel

/-- Raster 7 of 50 Hz enabled, frames running. -/
def raster7 (s : State) : State :=
  ((s.put F.MTB_RASTER_RATE_num 50 0 7).put F.MTB_RASTER_RATE_den 1 0 7).put F.MTB_RASTER_RATE_en 1 0 7 |>.put F.MTB_RASTER_GEOM_lines 1 0 7
    |>.put F.MTB_CTRL_run 1 |>.put F.MTB_STATUS_run 1

/-- A packetiser's flow 255 of link group 15: enabled, or not. -/
def flowing (en : Bool) : State :=
  let v : Vid := ⟨0, 0, 1, 1, 0, [], 0, 1920, 1080, 3, 7⟩
  { raster7 live with ports := { s0.ports with flows := [(256 * 15 + 255, ⟨en, List.replicate 7 0, [v]⟩)] } }

theorem hyps_PacketisersServeTheirFlows :
    (live.admits m0 ∧ live.flowLegal 15 (live.words (live.flowAddr 15 255) 7) = false ∧
      (let s := live.setWord (live.flowAddr 15 255 + 96) (BitVec.ofNat 128 (2 ^ 125))
       s.admits m0 ∧ s.flowLegal 15 (s.words (s.flowAddr 15 255) 7) = true)) ∧
    (let s := flowing true
     (s.pktFlow 15 255).enabled = true ∧ (s.pktFlow 15 255).vids = ⟨0, 0, 1, 1, 0, [], 0, 1920, 1080, 3, 7⟩ :: [] ∧
     s.flag F.MTB_STATUS_run = true ∧ s.raster 7 ≠ none ∧ s.get F.CMP_STATUS_state 3 ≠ 3 ∧ (s.put F.CMP_STATUS_state 3 3).get F.CMP_STATUS_state 3 = 3) ∧
    s0.flag F.MTB_STATUS_run = false ∧ s0.raster 7 = none ∧
    ((flowing false).pktFlow 15 255).enabled = false := by
  unfold State.admits; decide +kernel

/-- A flow key, and an RTP packet of it in a frame. -/
def fk : FlowKey := ⟨false, 0x0A000001, 0xEF000001, 5004, 5006, 0x1234⟩
def fr1 : List Byte :=
  [0, 0, 0, 0, 0, 1, 0, 0, 0, 0, 0, 2, 8, 0, 69, 0, 0, 44, 0, 0, 64, 0, 64, 17, 65, 191, 10, 0, 0, 1, 239, 0, 0, 1, 19,
   140, 19, 142, 0, 24, 0, 0, 128, 96, 0, 7, 0, 1, 95, 144, 0, 0, 18, 52, 1, 2, 3, 4, 0, 0]

/-- Stream 5 with that key, of link group 15, unmetered, unmerged and in the clear; the frame waits in the receive buffer. Of the two
buffers of the pool the second lies in guarded memory of quadrant 3. -/
def streamed : State :=
  let s := ranged.put F.LNK_KEY_BASE_base 1
  let s := ((s.setWord 640 0x0A000001).setWord 656 0xEF000001).setWord 672
    (BitVec.ofNat 128 (5004 * 2 ^ 112 + 5006 * 2 ^ 96 + 0x1234 * 2 ^ 64 + 2 ^ 63 + 0xFFFF * 2 ^ 40 + 0xFFFFF * 2 ^ 20))
  let s := s.setWord 688 (BitVec.ofNat 128 (15 * 2 ^ 8))
  let s := s.setWord (2 ^ 20 + 64 * 257377) (BitVec.ofNat 128 (2 ^ 63 + 3492467 * 2 ^ 40 + 5))
  let s := ((s.put F.MEM_GUARD_en 1 0 31).put F.MEM_GUARD_size_mib 1 0 31).put F.MEM_GUARD_base 12288 0 31
  { s.put F.LNK_ING_CTRL_en 1 15 with fwd := { s.fwd with rx := [(15, [⟨31, fr1, 0, 0⟩])], pool := [(15, [4096, 3 * 2 ^ 32])] } }

theorem full_buffer (n : Nat) (h : 2 ^ 22 ≤ n) :
    ({ s0 with fwd := { s0.fwd with rx := [(15, [⟨31, List.replicate n 0, 0, 0⟩])] } } : State).rxRoom 15 31 60 = false := by
  simp only [State.rxRoom, SMap.getD, SMap.get?, rxBytes, Bool.or_eq_false_iff, decide_eq_false_iff_not]
  simp only [beq_self_eq_true, List.filter_cons, Option.getD_some, if_true, List.filter_nil, List.foldl_cons,
    List.foldl_nil, List.length_replicate]
  omega

theorem hyps_FramesEnterThePipeline :
    (let s := (port 1).put F.LNK_PORT_CFG_max_frame 60 15 31
     let b : List Byte := List.replicate 60 0; let pause : List Byte := List.replicate 12 0 ++ [0x88, 0x08] ++ List.replicate 46 0
     (port 0).portUp 15 31 = false ∧ s.portUp 15 31 = true ∧ (List.replicate 59 (0 : Byte)).length < 60 ∧ 60 ≤ b.length ∧
     s.get F.LNK_PORT_CFG_max_frame 15 31 < (0 :: b).length ∧ b.length ≤ s.get F.LNK_PORT_CFG_max_frame 15 31 ∧
     netAt pause 12 2 = 0x8808 ∧ pause.length = 60 ∧ netAt b 12 2 ≠ 0x8808 ∧ s.accepts 15 31 (b.take 6) = true ∧
     (s.put F.LNK_PORT_MAC_mac 1 15 31).accepts 15 31 (b.take 6) = false ∧ s.rxRoom 15 31 b.length = true) ∧
    (nextPort (streamed.fwd.rxTurn.getD 15 31) (streamed.fwd.rx.getD 15 []) = some 31 ∧
     (streamed.fwd.rx.getD 15 []).find? (fun f => f.port == 31) = some ⟨31, fr1, 0, 0⟩ ∧ streamed.flag F.LNK_ING_CTRL_en 15 = true ∧
     (streamed.put F.LNK_ING_CTRL_en 0 15).flag F.LNK_ING_CTRL_en 15 = false ∧ parse (fr1.take 24 ++ [0] ++ fr1.drop 25) = .ipck) ∧
    (let r : Parsed := ⟨false, 0x0A000001, 0xEF000001, 5004, 5006, 0, 42, 16, false⟩
     let u : State := { streamed with fwd := { streamed.fwd with rx := streamed.fwd.rx.put 15 (dropFirst (fun f => f.port == 31) (streamed.fwd.rx.getD 15 [])), rxTurn := streamed.fwd.rxTurn.put 15 31 } }
     parse fr1 = .fast r ∧ netAt (slice fr1 r.pay r.len) 8 4 = 0x1234 ∧ u.lookup fk = some 5 ∧ streamed.recGet 5 3 11 8 = 15 ∧
     ({ streamed.fwd with legStop := [(lgKey 15 0, true)] }).legStop.get? (lgKey 15 (streamed.recGet 5 3 127 110)) = some true ∧
     streamed.fwd.streamBlock.get? (lgKey 15 5) = none ∧ streamed.fwd.legStop.get? (lgKey 15 (streamed.recGet 5 3 127 110)) = none ∧
     fld (streamed.word (streamed.recAddr 5 + 32)) 55 40 = 0xFFFF ∧ fld (streamed.word (streamed.recAddr 5 + 32)) 39 20 = noCtx ∧
     (∀ m, m < 256 → streamed.flag F.LNK_MRG_en 15 m = false) ∧ (streamed.takeBuf 15).map (·.1) = some (3 * 2 ^ 32) ∧
     (streamed.put F.MEM_GUARD_en 0 0 31).takeBuf 15 = none) := by
  decide +kernel

/-- The key table's two buckets of stream 5's key filled with slots of other streams. -/
def crowded : State :=
  let s := streamed.put F.LNK_KEY_BASE_base 2
  let v := leBytes 64 ((List.range 8).foldl (fun n j => n + 2 ^ (64 * j + 63)) 0)
  (s.wr (2 ^ 21 + 64 * 257377) v).wr (2 ^ 21 + 64 * 37827) v

/-- A stop queue. -/
def stopping (q : List StopCmd) : State := { s0 with fwd := { s0.fwd with stopQ := q, legQ := [(15 * 2 ^ 20 + 7, [⟨1, 7, 4096, 1, 0, false, false, 0⟩])] } }

/-- 64 served commands. -/
def busy64 : List Cmd := List.replicate 64 ⟨1, 255, 0, 0, 0, some 1⟩

theorem fk_places : fk.places = (257377, 37827, 3492467) := by decide +kernel

theorem hyps_FlowCommandsKeepTheTable :
    (let s : State := { s0 with fwd := { s0.fwd with flowQ := busy64 } }
     s.admits m0 ∧ 64 ≤ s.fwd.flowQ.length ∧ (∀ c ∈ s.fwd.flowQ, c.served ≠ none)) ∧
    (let s := stopping [⟨1, 255, 7, [], []⟩]
     s.admits m0 ∧ s.fwd.stopQ ≠ [] ∧ s.fwd.flowQ.length < 64) ∧
    (let c : Cmd := ⟨1, 255, 0, 0, 0, none⟩; let s : State := { s0 with fwd := { s0.fwd with flowQ := [c], stopQ := [⟨1, 255, 7, [], []⟩] } }
     s.fwd.flowQ = c :: [] ∧ c.served = none ∧ s.fwd.stopQ ≠ []) ∧
    (let s : State := { streamed with fwd := { streamed.fwd with recCache := [(5, [0, 0, 0, 0, 0])] } }
     s.fwd.flowQ = [] ∧ s.fwd.stopQ = [] ∧ s.keySlotOf 5 = some (2 ^ 20 + 64 * 257377) ∧
     fld (s.word (s.recAddr 5 + 48)) 11 8 ≠ s.recGet 5 3 11 8) ∧
    (streamed.fwd.flowQ = [] ∧ streamed.fwd.stopQ = [] ∧ streamed.admits m0 ∧ bit (streamed.word (streamed.recAddr 1048575 + 32)) 63 = false ∧
     streamed.keySlotOf 1048575 = none) ∧
    (bit (streamed.word (streamed.recAddr 5 + 32)) 63 = true ∧ streamed.recKey 5 = fk ∧ (streamed.lookup fk).isSome = true ∧
     streamed.keySlotOf 5 = some (2 ^ 20 + 64 * 257377) ∧ fld (streamed.word (streamed.recAddr 5 + 48)) 11 8 = streamed.recGet 5 3 11 8) ∧
    (let s := crowded
     s.fwd.flowQ = [] ∧ s.admits m0 ∧ bit (s.word (s.recAddr 5 + 32)) 63 = true ∧ s.recKey 5 = fk ∧ s.lookup fk = none ∧
     (∀ e ∈ s.keySlots fk, slotValid e.2 = true)) ∧
    (let s := streamed.put F.LNK_KEY_BASE_base 2
     s.fwd.flowQ = [] ∧ s.admits m0 ∧ bit (s.word (s.recAddr 5 + 32)) 63 = true ∧ s.recKey 5 = fk ∧ s.lookup fk = none ∧
     (∃ e ∈ s.keySlots fk, slotValid e.2 = false) ∧ s.memOk ∧ (∀ e ∈ s.keySlots fk, s.tileBase e.1 ≠ none)) ∧
    (let c : Cmd := ⟨1, 255, 0, 0, 0, some 15⟩
     ({ s0 with fwd := { s0.fwd with flowQ := [c] } } : State).fwd.flowQ = [c] ∧ c.served = some 15) := by
  unfold State.admits State.memOk State.lookup State.keySlots
  rw [fk_places]; decide +kernel

theorem hyps_StopCommandsReachEveryGroup :
    ((stopping (List.replicate 64 ⟨1, 0, 0, [], []⟩)).admits m0 ∧ 64 ≤ (stopping (List.replicate 64 ⟨1, 0, 0, [], []⟩)).fwd.stopQ.length) ∧
    (s0.admits m0 ∧ s0.fwd.stopQ.length < 64 ∧ (2 ≤ 2 ∧ 262144 ≤ 2 ^ 20 - 1) ∧ (3 ≤ 4 ∨ 2 ^ 20 - 1 < 262144) ∧ (3 ≤ 1 ∨ 262143 < 262144)) ∧
    (∀ op ∈ [1, 2, 3, 4], let s := stopping [⟨op, 255, 7, [0], []⟩]
     s.fwd.stopQ = ⟨op, 255, 7, [0], []⟩ :: [] ∧ 7 < 2 ^ 20 ∧ 15 ∉ [0]) ∧
    (∀ op ∈ [1, 2, 3, 4], let s := stopping [⟨op, 255, 7, [15], []⟩]
     s.fwd.stopQ = ⟨op, 255, 7, [15], []⟩ :: [] ∧ 15 ∈ [15] ∧ 15 ∉ ([] : List Nat) ∧ s.fwd.legQ.getD (lgKey 15 7) [] ≠ []) ∧
    (List.range 16).length = 16 ∧ (List.range 15).length < 16 := by
  unfold State.admits; decide +kernel

/-- What link groups hold of subscription 3, stream 5 and leg 7. -/
def caching : State :=
  let f := { s0.fwd with subCache := [(3, [1, 2])], recCache := [(5, [3, 4, 5, 6, 7])] }
  { (live.put F.LNK_LEG_BASE_base 1).put F.LNK_STREAM_BASE_base 2 with
    fwd := { f with legCache := [(7, [8, 9, 10, 11])], bufs := [(4096, ⟨15, 0, 0, 16, 1, 0, false, true, none⟩)] } }

theorem hyps_RatesRecordsAndReturns :
    (caching.admits m0 ∧ caching.memOk ∧ caching.fwd.subCache.get? 3 = some [1, 2] ∧ caching.tileBase (caching.subAddr 3) ≠ none ∧
     caching.fwd.recCache.get? 5 = some [3, 4, 5, 6, 7] ∧ caching.tileBase (caching.recAddr 5) ≠ none ∧
     caching.fwd.legCache.get? 7 = some [8, 9, 10, 11] ∧ caching.tileBase (caching.legAddr 7) ≠ none) ∧
    (let b : Buf := ⟨15, 0, 0, 16, 1, 0, false, true, none⟩
     fld (4096 : Reg64) 47 0 = 4096 ∧ caching.fwd.bufs.get? 4096 = some b ∧ b.prog = true ∧ b.lg = 15 ∧ b.lg ≠ 14 ∧
     caching.fwd.bufs.get? 0 = none) := by
  unfold State.admits State.memOk; decide +kernel

theorem hyps_SelectionCommandsAreServed :
    (s0.admits m0 ∧ s0.fwd.selQ.getD 15 [] = [] ∧ (7 < 8 ∧ 8 ≠ 15) ∧ 262144 ≤ 2 ^ 24 - 1 ∧ 16384 ≤ 262143 ∧
     (s0.sub 3).curS = 0 ∧ (s0.sub 3).curT = 0 ∧ ¬ ((s0.sub 3).curS = 7 ∧ (s0.sub 3).curT = 7) ∧ fld (s0.word (s0.subAddr 3)) 93 92 ≠ 1 ∧
     (let s := live.setWord (live.subAddr 3 + 16) (BitVec.ofNat 128 (noQueue * 2 ^ 88))
      s.admits m0 ∧ s.fwd.selQ.getD 15 [] = [] ∧ fld (s.word (s.subAddr 3 + 16)) 107 88 = noQueue)) ∧
    (let s := live.setWord (live.subAddr 3) (BitVec.ofNat 128 (2 ^ 92))
     let x : Sub := { s.sub 3 with pend := true, pendS := 7, pendT := 7, pendPics := 0, reqSent := false }
     s.admits m0 ∧ s.fwd.selQ.getD 15 [] = [] ∧ ¬ ((s.sub 3).curS = 7 ∧ (s.sub 3).curT = 7) ∧ fld (s.word (s.subAddr 3)) 93 92 = 1 ∧
     x.downType (fld (s.word (s.subAddr 3)) 109 108) = false ∧ fld (s.word (s.subAddr 3 + 16)) 107 88 ≠ noQueue) ∧
    (let w (n : Nat) : Word := BitVec.ofNat 128 n
     let s := (live.setWord (live.roomAddr 16383) (w (2 * 2 ^ 118))).setWord (live.roomAddr 16383 + 16) (w ((6 * 2 ^ 44) * 2 ^ 64 + 5 * 2 ^ 44))
     let s : State := { s with fwd := { s.fwd with rooms := [(16383, [w (1 * 2 ^ 118), w (5 * 2 ^ 44 + 2 ^ 43)])] } }
     s.admits m0 ∧ s.fwd.selQ.getD 15 [] = [] ∧
     members (s.words (s.roomAddr 16383) 32) = [⟨5, false, 0, 0⟩, ⟨6, false, 0, 0⟩] ∧
     (((s.fwd.rooms.get? 16383).map members).getD []) = [⟨5, true, 0, 0⟩]) ∧
    (let s : State := { s0 with fwd := { s0.fwd with selQ := [(15, busy64)] } }
     s.admits m0 ∧ 64 ≤ (s.fwd.selQ.getD 15 []).length ∧ (∀ c ∈ s.fwd.selQ.getD 15 [], c.served ≠ none) ∧
     (s.fwd.selQ.getD 15 []).head? = some ⟨1, 255, 0, 0, 0, some 1⟩) := by
  unfold State.admits; decide +kernel

/-- A subscription's renumbering state. -/
def numbered (init : Bool) : Sub := { s0.sub 3 with seqInit := init, lastIn := 65535, seqOff := 2, lastOut := 65533, dropSeq := 65530 }

theorem hyps_RenumberingClosesTheGaps :
    (let x := numbered true
     x.lastIn < 65536 ∧ x.seqOff < 65536 ∧ x.lastOut < 65536 ∧ x.dropSeq < 65536 ∧ x.seqInit = true ∧ (numbered false).seqInit = false ∧
     (0 < (32766 + 65536 - x.lastIn) % 65536 ∧ (32766 + 65536 - x.lastIn) % 65536 < 32768) ∧
     (0 < (0 + 65536 - 32766) % 65536 ∧ (65533 + 65536 - 32766) % 65536 < 32768) ∧
     (65535 + 65536 - x.lastIn) % 65536 = 0 ∧
     (32768 ≤ (65530 + 65536 - x.lastIn) % 65536 ∧ ¬ (1 ≤ (65530 + 65536 - x.dropSeq) % 65536 ∧ (65530 + 65536 - x.dropSeq) % 65536 ≤ 32767)) ∧
     (32768 ≤ (32767 + 65536 - x.lastIn) % 65536 ∧ ¬ (1 ≤ (32767 + 65536 - x.dropSeq) % 65536 ∧ (32767 + 65536 - x.dropSeq) % 65536 ≤ 32767))) := by
  decide +kernel

/-- Link group 15 with a packet that waits for its walk, a copy for leg 7, a buffer, and a leg configuration. -/
def replicating (b : Buf) (queued depth : Nat) (stop : Bool) : State :=
  let c : Copy := ⟨3, 7, 4096, 1, 0, false, false, 0⟩
  let f := { s0.fwd with walk := [(15, [⟨5, 0, 4096⟩])], bufs := [(4096, b)], copies := [(15, [c])] }
  let g := { f with legCfg := [(7, [BitVec.ofNat 128 (depth * 2 ^ 16), BitVec.ofNat 128 (noQueue * 2 ^ 108)])] }
  { live with
    fwd := { g with legQ := [(15 * 2 ^ 20 + 7, List.replicate queued c)], legStop := if stop then [(15 * 2 ^ 20 + 7, true)] else [] } }

/-- Link group 15 with an item in its local queue, and one in its retransmission queue. -/
def asked (block : Bool) : State :=
  let s := ((live.put F.LNK_LOCAL_QUEUE_en 1 15).put F.LNK_LOCAL_QUEUE_queue 9 15).put F.LNK_RTX_QUEUE_en 1 15
  { s.put F.LNK_RTX_QUEUE_queue 10 15 with
    queues := [(9, fq [[BitVec.ofNat 128 (5 * 2 ^ 44), BitVec.ofNat 128 (noQueue * 2 ^ 108 + 4096)]]), (10, fq [[BitVec.ofNat 128 (7 * 2 ^ 46)]])],
    fwd := { s0.fwd with legCfg := [(7, [0, BitVec.ofNat 128 (noQueue * 2 ^ 108)])], streamBlock := if block then [(15 * 2 ^ 20 + 5, true)] else [] } }

theorem hyps_PacketsAreWalkedAndReleased :
    (let b : Buf := ⟨15, 0, 0, 16, 1, 1, true, false, none⟩
     let s := replicating b 0 0 false
     s.fwd.walk.getD 15 [] = [⟨5, 0, 4096⟩] ∧ s.flag F.LNK_EGR_CTRL_en 15 = false ∧ s.fwd.bufs.get? 4096 = some b ∧ s0.fwd.walk.getD 15 [] = []) ∧
    (let b : Buf := ⟨15, 0, 0, 16, 1, 1, true, false, none⟩; let c : Copy := ⟨3, 7, 4096, 1, 0, false, false, 0⟩
     (∀ q ∈ [(0, 0, true), (1, 0, false), (255, 255, false), (1, 2, false), (254, 255, false)],
       (replicating b q.1 q.2.1 q.2.2).fwd.copies.getD 15 [] = [c]) ∧
     ((replicating b 0 0 true).fwd.legStop.get? (lgKey 15 7)).isSome = true ∧
     (∀ q ∈ [(1, 0), (255, 255), (1, 2), (254, 255)], let s := replicating b q.1 q.2 false
       s.fwd.legStop.get? (lgKey 15 7) = none ∧ s.fwd.legCfg.get? 7 = some [BitVec.ofNat 128 (q.2 * 2 ^ 16), BitVec.ofNat 128 (noQueue * 2 ^ 108)] ∧
       fld (BitVec.ofNat 128 (q.2 * 2 ^ 16)) 23 16 = q.2 ∧ (s.legQueue 15 7).length = q.1 ∧ s.queuedAt 15 < 65536 ∧ s.legQueue 15 7 ≠ []) ∧
     fld (BitVec.ofNat 128 (noQueue * 2 ^ 108)) 127 108 = noQueue) ∧
    (∀ bl ∈ [true, false], let s := asked bl
     s.flag F.LNK_LOCAL_QUEUE_en 15 = true ∧ s.get F.LNK_LOCAL_QUEUE_queue 15 = 9 ∧ s.get F.LNK_RTX_QUEUE_queue 15 = 10 ∧ s.flag F.LNK_RTX_QUEUE_en 15 = true ∧
     gives s 9 [BitVec.ofNat 128 (5 * 2 ^ 44), BitVec.ofNat 128 (noQueue * 2 ^ 108 + 4096)] = true ∧
     gives s 10 [BitVec.ofNat 128 (7 * 2 ^ 46)] = true ∧ (s.fwd.streamBlock.get? (lgKey 15 5)).isSome = bl ∧
     fld (BitVec.ofNat 128 (5 * 2 ^ 44)) 63 44 = 5 ∧ fld (BitVec.ofNat 128 (noQueue * 2 ^ 108 + 4096)) 127 108 = noQueue ∧
     fld (BitVec.ofNat 128 (7 * 2 ^ 46)) 63 46 = 7 ∧ fld (BitVec.ofNat 128 (7 * 2 ^ 46)) 79 64 = 0 ∧
     s.fwd.legCfg.get? 7 = some [0, BitVec.ofNat 128 (noQueue * 2 ^ 108)] ∧ (popped s 10).queues.get? (fld (BitVec.ofNat 128 (noQueue * 2 ^ 108)) 127 108) = none) ∧
    (let b : Buf := ⟨15, 0, 0, 16, 1, 0, true, false, none⟩
     let s := replicating b 0 0 false; let h := s.get F.LNK_EGR_CTRL_hold_ms 15
     b.hold = true ∧ b.arrival + min 1000 h * 10 ^ 6 ≤ (State.at_ s (10 ^ 9)).upNs ∧
     (s.put F.LNK_EGR_CTRL_hold_ms 1 15).upNs < b.arrival + min 1000 ((s.put F.LNK_EGR_CTRL_hold_ms 1 15).get F.LNK_EGR_CTRL_hold_ms 15) * 10 ^ 6) ∧
    (let b : Buf := ⟨15, 0, 0, 16, 1, 0, false, false, none⟩
     let s := replicating b 0 0 false
     s.fwd.bufs.get? 4096 = some b ∧ b.copies = 0 ∧ b.hold = false ∧ b.prog = false ∧ s.feedHolds 4096 = false ∧ b.ret = none) := by
  refine ⟨?_, ?_, ?_, ?_, ?_⟩ <;> decide +kernel

/-- Egress enabled; stream 5's list is one entry, subscription 3 of leg 7, which is in service. -/
def listedEntry : State :=
  let s := ((live.put F.LNK_EGR_CTRL_en 1 15).put F.LNK_SUB_BASE_base 1).put F.LNK_LEG_BASE_base 2 |>.put F.LNK_REPL_BASE_base 3
  let s := (s.setWord (3 * 2 ^ 20) (BitVec.ofNat 128 (1 * 2 ^ 112 + 2 ^ 31))).setWord (3 * 2 ^ 20 + 16) (BitVec.ofNat 128 (2 ^ 31 + 3))
  let s := (s.setWord (s.subAddr 3) (BitVec.ofNat 128 (7 * 2 ^ 110))).setWord (s.legAddr 7 + 32) (BitVec.ofNat 128 (2 ^ 30))
  { s with fwd := { s.fwd with walk := [(15, [⟨5, 0, 4096⟩])], bufs := [(4096, ⟨15, 0, 0, 16, 1, 1, true, false, none⟩)] } }

/-- The history of leg 7 holds number 9 of SSRC 0x1234, subscription 3, in a buffer that is held; a request for it waits. -/
def keptHistory : State :=
  let s := (asked false).setWord ((asked false).subAddr 3) (BitVec.ofNat 128 (0x1234 * 2 ^ 32))
  let h : List Word := [0, BitVec.ofNat 128 (3 * 2 ^ 104 + 9 * 2 ^ 88 + 4096)]
  { s with
    queues := [(10, fq [[BitVec.ofNat 128 (0x1234 * 2 ^ 96 + 9 * 2 ^ 80 + 7 * 2 ^ 46)]]), (11, { fq [h] with cls := 2 })],
    fwd := { s.fwd with legCfg := [(7, [BitVec.ofNat 128 (2 * 2 ^ 16), BitVec.ofNat 128 (11 * 2 ^ 108)])],
                        bufs := [(4096, ⟨15, 0, 0, 16, 1, 0, true, false, none⟩)],
                        legQ := [(15 * 2 ^ 20 + 7, [⟨3, 7, 4096, 1, 0, false, false, 0⟩])] } }

theorem hyps_PacketsAreWalkedAndReleased_lists :
    (let s := listedEntry; let e := 2 ^ 31 + 3
     s.fwd.walk.getD 15 [] = ⟨5, 0, 4096⟩ :: [] ∧ s.flag F.LNK_EGR_CTRL_en 15 = true ∧
     s.fwd.bufs.get? 4096 = some ⟨15, 0, 0, 16, 1, 1, true, false, none⟩ ∧ s.recGet 5 3 63 32 < 8388608 ∧
     blockEntries (s.replBlock (s.recGet 5 3 63 32)) = [e] ∧ e.testBit 31 = true ∧
     8388608 ≤ fld (((s.replBlock (s.recGet 5 3 63 32))[0]?).getD 0) 31 0 ∧ e % 2 ^ 24 = 3 ∧ fld (s.word (s.subAddr 3)) 127 110 = 7 ∧
     bit (s.word (s.legAddr 7 + 32)) 30 = true ∧ s.fwd.legStop.get? (lgKey 15 7) = none ∧ fld (s.word (s.subAddr 3)) 109 108 < 2 ∧
     (s.sub 3).pend = false) ∧
    (let s := keptHistory; let w : Word := BitVec.ofNat 128 (0x1234 * 2 ^ 96 + 9 * 2 ^ 80 + 7 * 2 ^ 46)
     let h : List Word := [0, BitVec.ofNat 128 (3 * 2 ^ 104 + 9 * 2 ^ 88 + 4096)]
     s.flag F.LNK_RTX_QUEUE_en 15 = true ∧ gives s (s.get F.LNK_RTX_QUEUE_queue 15) [w] = true ∧ fld w 63 46 = 7 ∧ fld w 79 64 = 0 ∧
     fld w 127 96 = 0x1234 ∧ fld w 95 80 = 9 ∧ s.fwd.legCfg.get? 7 = some [BitVec.ofNat 128 (2 * 2 ^ 16), BitVec.ofNat 128 (11 * 2 ^ 108)] ∧
     (popped s 10).rtxRefused 15 7 0x1234 = false ∧ (popped s 10).findHistory 15 7 0x1234 (fun n => n == 9) = some h ∧
     fld ((h[1]?).getD 0) 47 0 = 4096 ∧ s.fwd.bufs.get? 4096 = some ⟨15, 0, 0, 16, 1, 0, true, false, none⟩ ∧
     (s.mtime + 2 ^ 64 - 0) % 2 ^ 64 < s.holdMs 15 * 10 ^ 6 ∧ (s.legQueue 15 7).length < 2 ∧ s.queuedAt 15 < 65536 ∧ s.legQueue 15 7 ≠ []) ∧
    (let s : State := { asked false with fwd := { (asked false).fwd with legStop := [(15 * 2 ^ 20 + 7, true)] } }
     (s.fwd.legStop.get? (lgKey 15 7)).isSome = true ∧ s.fwd.legCfg.get? 7 = some [0, BitVec.ofNat 128 (noQueue * 2 ^ 108)] ∧
     gives s 10 [BitVec.ofNat 128 (7 * 2 ^ 46)] = true) := by
  decide +kernel

/-- A job of account 5 with its context at 0x20000: op 1 decodes, op 8 encodes in a class. -/
def jobOf (op cls : Nat) : Job := newJob (BitVec.ofNat 128 (5 * 2 ^ 52 + op * 2 ^ 48 + 2 * 2 ^ 16 + cls * 2 ^ 7)) 0 9

/-- Codec core 63, enabled, with what it works on. -/
def coded (v : Vcc) (items : List (List Word)) : State :=
  let s := ((live.put F.VCC_CTRL_en 1 63).put F.VCC_JOBQ_en 1 63 1).put F.VCC_JOBQ_queue 9 63 1
  { s.setWord 0x20010 (BitVec.ofNat 128 (noQueue * 2 ^ 88 + 10 * 2 ^ 68)) with
    vcc := [(63, v)], queues := [(9, fq items), (10, fq [[4096]]), (11, fq [])] }

/-- The account of the job is exhausted, as core 63 knows. -/
def brokeAt (s : State) : State := { s with dis := { s0.dis with news := [(5, true)], heard := [(.vcc 63, 1)] } }

/-- A feed item of 16 bytes at 0x40000, and the H.264 packet there: sequence number 5, an IDR slice. -/
def feedItem : Word × Word := (BitVec.ofNat 128 (16 * 2 ^ 30 + 3 * 2 ^ 25), 0x40000)

def idrPacket : List Byte := [0x80, 96, 0, 5, 0, 0, 0, 9, 0, 0, 0, 1, 0x65, 0x88, 1, 2]

/-- Core 63 with a good H.264 context at 0x20000, of at most 64 x 64, whose feed, queue 12, holds that item. -/
def decodable (v : Vcc) (items : List (List Word)) : State :=
  let s := (coded v items).wr 0x40000 idrPacket
  let s := (s.setWord 0x20000 (BitVec.ofNat 128 (2 ^ 124 + 2 ^ 121 + 2 ^ 106 + 2 ^ 98))).setWord 0x20010
    (BitVec.ofNat 128 (12 * 2 ^ 108 + noQueue * 2 ^ 88 + 10 * 2 ^ 68))
  { s with queues := s.queues ++ [(12, { fq [[feedItem.1, feedItem.2]] with cls := 2 })] }

theorem hyps_CodecCoresTakeAndPauseJobs :
    (s0.vccFree 63 = false ∧ (coded ⟨none, [], none, 0⟩ []).chosen 63 = none) ∧
    (let j := jobOf 8 0; let s := coded ⟨none, [j], none, 0⟩ []
     s.vccFree 63 = true ∧ s.chosen 63 = some ⟨j, true⟩ ∧ isEncode j.w0 = true) ∧
    (let j := jobOf 1 0; let s := coded ⟨none, [], none, 0⟩ [[j.w0, j.w1]]
     s.vccFree 63 = true ∧ s.chosen 63 = some ⟨j, false⟩ ∧ gives s j.queue [j.w0, j.w1] = true ∧ isEncode j.w0 = false ∧ s.badDecode j = true ∧
     s.flag F.VCC_JOBQ_en 63 1 = true ∧ s.get F.VCC_JOBQ_queue 63 1 = j.queue ∧ j.op = 1 ∧
     s.reached (fld j.w1 127 64) = true ∧ (s.acct j.account).metered = false) ∧
    (let j := newJob (jobOf 1 0).w0 (BitVec.ofNat 128 (2 ^ 64)) 9; let s := decodable ⟨none, [], none, 0⟩ [[j.w0, j.w1]]
     s.vccFree 63 = true ∧ s.chosen 63 = some ⟨j, false⟩ ∧ gives s j.queue [j.w0, j.w1] = true ∧ s.reached (fld j.w1 127 64) = false) ∧
    (let j := jobOf 1 0; let s := decodable ⟨none, [], none, 0⟩ [[j.w0, j.w1]]
     s.vccFree 63 = true ∧ s.chosen 63 = some ⟨j, false⟩ ∧ gives s j.queue [j.w0, j.w1] = true ∧ s.badDecode j = false ∧
     s.jobUndefined 63 ⟨j, false⟩ = none ∧ (s.acct j.account).metered = false ∧
     (s.feedOf j.ctx).map (fun f => (f.1, f.2.2)) = some (12, false) ∧
     (s.feedOf j.ctx).map (fun f => (s.feedScan (s.word (j.ctx + 32)) f.2.1).picture) = some [feedItem]) ∧
    (∀ op ∈ [1, 8], let j := jobOf op 3; let s := coded ⟨some j, [], none, 0⟩ []
     (s.vccOf 63).cur = some j ∧ j.paused = false ∧ (brokeAt s).knowsOut (.vcc 63) j.account = true ∧ isEncode j.w0 = decide (op = 8) ∧
     j.gang = none ∧ (s.vccOf 63).susp.length < 2 ∧ s.knowsOut (.vcc 63) j.account = false ∧ s.preempts 63 j = false) ∧
    (let j : Job := { jobOf 1 0 with paused := true }
     ((coded ⟨some j, [], none, 0⟩ []).vccOf 63).cur = some j) ∧
    (let j := jobOf 8 3; let k := jobOf 8 0; let s := coded ⟨some j, [], none, 0⟩ [[k.w0, k.w1]]
     isEncode j.w0 = true ∧ j.gang = none ∧ j.paused = false ∧ (s.vccOf 63).susp.length < 2 ∧ s.preempts 63 j = true) ∧
    (s0.admits m0 ∧ s0.gangLegal 15 [63, 48] = true ∧ s0.gangLegal 15 [63, 47] = false ∧ s0.gangLegal 15 [63, 63] = false ∧
     (List.range (max 2 (fld (BitVec.ofNat 64 (48 * 64 + 63)) 50 48 + 1))).map (fun i => fld (BitVec.ofNat 64 (48 * 64 + 63)) (6 * i + 5) (6 * i)) = [63, 48]) := by
  unfold State.admits
  refine ⟨?_, ?_, ?_, ?_, ?_, ?_, ?_, ?_, ?_⟩ <;> decide +kernel

/-- The findings of a picture of 2 x 2 samples, one macroblock, of a profile. -/
def facts (profile : Nat) : DecodeFacts :=
  { profile := profile, level := 10, depth := 8, chroma := 1, interlaced := false, brings := [], needs := [], width := 2, height := 2, codedW := 16,
    codedH := 16, cropX := 0, cropY := 0, ctu := 16, scan := [], tiles := 1, slices := 1, wavefront := false, showOnly := none, keyFrame := false,
    order := 0, names := [], isRef := true, dropRefs := 0, recoverySei := none, boundaries := [], damage := [], around := [], reads := [],
    lumaRows := [[1, 2], [3, 4]], cbRows := [[5]], crRows := [[6]] }

theorem hyps_PicturesEndWithTheirItems :
    (let j := jobOf 1 0; let s := coded ⟨some j, [], none, 0⟩ []
     (s.vccOf 63).cur = some j ∧ j.paused = false ∧ isEncode j.w0 = false ∧ s.keptOf j = none) ∧
    (let j : Job := { jobOf 1 0 with items := [feedItem] }; let s := decodable ⟨some j, [], none, 0⟩ []
     (s.vccOf 63).cur = some j ∧
     (s.keptOf j).map (fun k => (s.decodeResult j k (facts 0), s.decodeResult j k (facts 99))) = some (0, 3) ∧
     findingsFit (fld (s.word j.ctx) 127 124) j (s.refsOf j.ctx) (facts 0) = true ∧ s.memOk ∧ (s.acct j.account).metered = false) ∧
    (s0.vccOf 63).cur = none := by
  unfold State.memOk
  refine ⟨?_, ?_, ?_⟩ <;> decide +kernel

/-- An H.265 encode context of one encoding of 64 x 64. -/
def encoding (v : Vcc) : State := (coded v []).setWord 0x20000 (BitVec.ofNat 128 (2 * 2 ^ 124 + 2 ^ 121 + 64 * 2 ^ 100 + 64 * 2 ^ 86))

/-- A key picture of one CTU. -/
def encFacts : EncodeFacts :=
  let rows (n : Nat) : List (List Nat) := List.replicate n (List.replicate n 128)
  ⟨(levelFor 2 64 64 0).getD 0, 0, none, 0, [], [⟨0, [⟨true, 0, 0, 0, 64, []⟩], rows 64, rows 32, rows 32⟩]⟩

theorem hyps_PicturesEndWithTheirItems_encoded :
    (let j : Job := { jobOf 8 0 with key := true, enc := 1 }; let s := encoding ⟨some j, [], none, 0⟩
     (s.vccOf 63).cur = some j ∧ j.paused = false ∧ isEncode j.w0 = true ∧ j.waiting = none ∧ encodings (s.word j.ctx) ≤ j.enc ∧
     encodeFits (s.word j.ctx) (s.word (j.ctx + 32)) j (s.crew 63) (layerRuns (s.word j.ctx) (s.word (j.ctx + 32)) j (s.word (privWord j.ctx)) encFacts)
       (s.readAllRefs 63 j (layerRuns (s.word j.ctx) (s.word (j.ctx + 32)) j (s.word (privWord j.ctx)) encFacts)).1 encFacts = true) ∧
    (let j : Job := { jobOf 8 0 with key := true }; let s := encoding ⟨some j, [], none, 0⟩; let p : EncPacket := ⟨0, true, [], [40, 1, 9]⟩
     j.enc < encodings (s.word j.ctx) ∧ packetFits (s.word j.ctx) j p = true ∧
     (s.encodedPacket j p).length ≤ clampNat (fld (s.word (j.ctx + 16 * (5 + p.enc))) 80 70) 256 1536 ∧ j.waiting = none ∧
     gives s (fld (s.word (j.ctx + 16)) 87 68) [4096] = true ∧
     ((s.setWord 0x20010 (BitVec.ofNat 128 (11 * 2 ^ 68))).popItem (fld ((s.setWord 0x20010 (BitVec.ofNat 128 (11 * 2 ^ 68))).word 0x20010) 87 68)).isNone = true) ∧
    (let p : EncPacket := ⟨0, true, [], [40, 1, 9]⟩; let q : EncPacket := ⟨0, true, [], [40, 1, 8]⟩
     let j : Job := { jobOf 8 0 with key := true, waiting := some p }; let s := encoding ⟨some j, [], none, 0⟩
     (s.vccOf 63).cur = some j ∧ packetFits (s.word j.ctx) j p = true ∧ packetFits (s.word j.ctx) j q = true ∧ p ≠ q) := by
  refine ⟨?_, ?_, ?_⟩ <;> decide +kernel

/-- A word 3 of an encode context: since_key, temporal position, sweep length, pictures into it. -/
def ctx3 (since tpos len done_ : Nat) : Word := BitVec.ofNat 128 (since * 2 ^ 29 + tpos * 2 ^ 27 + len * 2 ^ 40 + done_ * 2 ^ 48)

/-- A word 0: sweep_len n and key interval. -/
def ctx0 (n gap : Nat) : Word := BitVec.ofNat 128 (n * 2 ^ 78 + gap * 2 ^ 69)

/-- Key at once; wanted but held back; a sweep that starts on a deferral, goes on, begins again; none without sweep_len or within a
temporal cycle. -/
theorem hyps_EncoderDecidesByItsRequests :
    (fld (ctx0 8 5) 85 78 = 8 ∧ fld (ctx0 8 5) 76 69 = 5 ∧ fld (ctx3 4 3 7 6) 36 29 = 4 ∧ fld (ctx3 4 3 7 6) 28 27 = 3 ∧ fld (ctx3 4 3 7 6) 47 40 = 7 ∧
      fld (ctx3 4 3 7 6) 55 48 = 6) ∧
    (∀ w ∈ [(ctx0 8 5, ctx3 5 0 0 0, [false]), (ctx0 0 5, ctx3 255 3 0 0, [true])],
      (false ∈ w.2.2 ∨ (fld w.1 85 78 = 0 ∧ true ∈ w.2.2)) ∧ fld w.1 76 69 ≤ fld w.2.1 36 29) ∧
    (false ∈ [false] ∧ ¬ fld (ctx0 8 5) 76 69 ≤ fld (ctx3 4 0 0 0) 36 29) ∧
    (let w3 := ctx3 4 0 7 7
     fld w3 28 27 = 0 ∧ fld (ctx0 8 5) 85 78 ≠ 0 ∧ true ∈ [true] ∧ ¬ false ∈ [true] ∧ (bit w3 26 = false ∨ fld w3 55 48 = fld w3 47 40)) ∧
    (fld (ctx3 4 0 7 7) 55 48 = fld (ctx3 4 0 7 7) 47 40 ∧ bit (ctx3 4 0 7 6) 38 = false ∧ fld (ctx3 4 0 7 6) 47 40 ≠ 0 ∧
      fld (ctx3 4 0 7 6) 55 48 < fld (ctx3 4 0 7 6) 47 40 ∧ fld (ctx3 4 0 0 0) 47 40 = 0) ∧
    (fld (ctx3 4 3 0 0) 28 27 ≠ 0 ∧ fld (ctx0 0 5) 85 78 = 0) := by decide +kernel

/-- Canvas 1023 of composer 3, a ring of four slots of 64 x 64, at 50 frames a second; `c` sets what the canvas holds. -/
def canvased (c : Canvas → Canvas) : State :=
  let s := (((guard1 live).put F.CMP_CTRL_en 1 3).put F.MTB_STATUS_run 1).put F.MTB_RASTER_RATE_en 1 0 0
  let s := (s.put F.MTB_RASTER_RATE_num 50 0 0).put F.MTB_RASTER_RATE_den 1 0 0
  let s := ((s.put F.CMP_CAN_CTRL_en 1 3 1023).put F.CMP_CAN_SIZE_width 64 3 1023).put F.CMP_CAN_SIZE_height 64 3 1023
  { s with cmp := { s.cmp with canvases := [(4095, c { Canvas.start with active := [0, 0, 0, 0, 0] })] } }

def framed (bn due : Nat) : CanFrame := ⟨bn, due, 0, false, false, 0, 0, 0, [], [0, 0, 0, 0, 0], []⟩

/-- The boundary that a latch now stands for. -/
def latchBn (s : State) : Nat := (boundaries (50, 10 ^ 9, 0) (s.nanos + clampNat (s.get F.CMP_CTRL_latch_ns 3) 2000 50000)).1

theorem hyps_CanvasesLatchAndComplete :
    (s0.admits m0 ∧ fld (1023 : Reg64) 9 0 = 1023) ∧
    (s0.composerRuns 3 = false ∧ (let s := canvased id; (s.canvas 3 1023).running = false ∧ (s.canvas 3 1023).requests = [])) ∧
    (let s := canvased (fun c => { c with running := true })
     s.composerRuns 3 = true ∧ (∀ i, i < 64 → (s.insetOf 3 1023 i).pend = none) ∧ (s.canvas 3 1023).running = true ∧
     s.canRaster (s.canvas 3 1023).active = some (50, 10 ^ 9, 0) ∧ 0 ≤ (s.nanos + clampNat (s.get F.CMP_CTRL_latch_ns 3) 2000 50000) * 50 ∧
     (s.canvas 3 1023).lastBn ≠ some (latchBn s) ∧ (s.canvas 3 1023).requests = [] ∧ (s.canvas 3 1023).comp = none) ∧
    (let s := canvased (fun c => { c with running := true, lastBn := some (latchBn s0) })
     s.composerRuns 3 = true ∧ (s.canvas 3 1023).lastBn = some (latchBn s)) ∧
    (let s := State.at_ (canvased (fun c => { c with requests := [10 ^ 9] })) (10 ^ 9)
     s.composerRuns 3 = true ∧ (s.canvas 3 1023).running = false ∧ s.canRaster (s.canShadow 3 1023) = some (50, 10 ^ 9, 0) ∧
     (∀ q ∈ (s.canvas 3 1023).requests, latchBn s - clampNat (s.get F.CMP_CTRL_latch_ns 3) 2000 50000 ≤ q)) ∧
    (let s := State.at_ (canvased (fun c => { c with requests := [5] })) (10 ^ 9)
     (s.canvas 3 1023).lastBn ≠ some (latchBn s) ∧ (∃ q ∈ (s.canvas 3 1023).requests, q < latchBn s - clampNat (s.get F.CMP_CTRL_latch_ns 3) 2000 50000) ∧
     (s.canvas 3 1023).comp = none ∧ s.canvasValid (s.canShadow 3 1023) = true ∧ s.flag F.CMP_CAN_CTRL_en 3 1023 = true ∧
     (∀ i, i < 64 → (s.insetOf 3 1023 i).dirty = false)) ∧
    (let f := framed 0 0; let s := canvased (fun c => { c with comp := some f })
     (s.canvas 3 1023).comp = some f ∧ f.due ≤ s.nanos ∧ (s.canRaster f.fields).isSome = true ∧ (s.acct (fld (nth f.fields 0) 47 36)).metered = false) ∧
    (let f := framed 0 1; let s := canvased (fun c => { c with comp := some f })
     (s.canvas 3 1023).comp = some f ∧ f.bn ≤ s.nanos ∧ s.nanos < f.due ∧ (s.canRaster f.fields).isSome = true) ∧
    (let f := framed 1 2; let s := canvased (fun c => { c with comp := some f })
     (s.canvas 3 1023).comp = some f ∧ s.nanos < f.bn) ∧
    s0.canRaster (framed 0 0).fields = none := by
  unfold State.admits
  refine ⟨?_, ?_, ?_, ?_, ?_, ?_, ?_, ?_, ?_, ?_⟩ <;> decide +kernel

/-- Port 7 of audio node 1, locked or not; its route plays queue `q`, captures to queue 10 with buffers of queue 9, and holds `x`. -/
def audio (q lock : Nat) (x : AudPort) (items : List (List Word)) : State :=
  let s := ((live.put F.AUD_CTRL_en 1 1).put F.AUD_PORT_CFG_en 1 1 7).put F.AUD_PORT_STAT_locked lock 1 7
  let s := s.setReg .AUD_PORT_ROUTE (BitVec.ofNat 64 (q * 2 ^ 44 + 10 * 2 ^ 24 + 9 * 2 ^ 4)) 1 7
  { s with aud := { s0.aud with ports := [(15, x)] }, queues := [(9, fq items), (10, fq [])] }

/-- An output item for the block at `b`. -/
def outItem (b : Nat) : List Word := [BitVec.ofNat 128 (b * 2 ^ 64 + 0x10000), BitVec.ofNat 128 (10 * 2 ^ 108)]

/-- Flow 15 of node 1 with a block at `b`. -/
def flowAt (s : State) (b : Nat) : State :=
  { (s.put F.AUD_NET_CFG_en 1 1 15).put F.AUD_NET_CFG_queue 9 1 15 with aud := { s.aud with flows := [(31, ⟨some 7, [⟨b, 0, 0, [], 0⟩]⟩)] } }

theorem hyps_AudioOutputsTakeTheirBlocks :
    ((audio noQueue 1 { AudPort.idle with latched := some 0 } []).audPort 1 7).latched = some 0 ∧
    (∀ q ∈ [noQueue, 8, 9], let s := audio q 1 AudPort.idle [outItem 0]
      s.latchBlock = 0 ∧ (s.audPort 1 7).latched ≠ some 0 ∧ s.audActive 1 7 0 = true ∧ fld (s.routeFor 1 7 0) 63 44 = q ∧
      s.flag F.AUD_PORT_STAT_locked 1 7 = true ∧ s.queues.get? 8 = none) ∧
    (∀ b ∈ [999999, 10 ^ 6], gives (audio 9 1 AudPort.idle [outItem b]) 9 (outItem b) = true) ∧
    itemBlock (BitVec.ofNat 128 (999999 * 2 ^ 64 + 0x10000)) = 0 ∧ 0 < itemBlock (BitVec.ofNat 128 (10 ^ 6 * 2 ^ 64 + 0x10000)) ∧
    (let s := audio 8 0 AudPort.idle []
     s.audActive 1 7 0 = true ∧ s.flag F.AUD_PORT_STAT_locked 1 7 = false ∧ fld (s.routeFor 1 7 0) 63 44 = 8 ∧ s.queues.get? 8 = none) ∧
    (let s := (audio 9 1 AudPort.idle []).put F.AUD_STATUS_state 3 1
     (s.audPort 1 7).latched ≠ some s.latchBlock ∧ s.audSilent 1 = true ∧ s.flag F.AUD_PORT_CFG_en 1 7 = true) ∧
    (let k : PlayBlock := ⟨0, some (BitVec.ofNat 128 0x10000, BitVec.ofNat 128 (10 * 2 ^ 108)), [], 48⟩
     let s := audio 9 1 { AudPort.idle with play := [k] } []
     (s.audPort 1 7).play = k :: [] ∧ (s.audPort 1 7).stopAt = none ∧ s.mtime < k.b + 10 ^ 6 ∧ k.b + 10 ^ 6 ≤ (State.at_ s (10 ^ 6)).mtime ∧
     (s.acct (s.get F.AUD_CTRL_account 1)).metered = false) ∧
    (s0.audPort 1 7).play = [] ∧
    (let s := flowAt (audio 9 1 AudPort.idle [outItem 0]) 0
     s.audRuns 1 = true ∧ s.flag F.AUD_NET_CFG_en 1 15 = true ∧ (s.audFlow 1 15).latched ≠ some s.latchBlock ∧
     gives s (s.get F.AUD_NET_CFG_queue 1 15) (outItem 0) = true ∧ (s.put F.AUD_NET_CFG_queue 8 1 15).queues.get? 8 = none) ∧
    (let s := flowAt (audio 9 1 AudPort.idle []) 0; let u := flowAt (audio 9 1 AudPort.idle []) 1
     0 + 0 * (10 ^ 6 / s.flowPackets 1 15) ≤ s.mtime ∧ u.mtime < 1 + 0 * (10 ^ 6 / u.flowPackets 1 15)) := by
  refine ⟨?_, ?_, ?_, ?_, ?_, ?_, ?_, ?_, ?_, ?_⟩ <;> decide +kernel

theorem hyps_AudioInputsCaptureAndLock :
    ((audio 9 1 { AudPort.idle with inAt := some 0 } []).audPort 1 7).inAt = some (blockAt 0) ∧
    (let s := audio 9 1 AudPort.idle [[0x10000]]
     s.audActive 1 7 (blockAt s.mtime) = true ∧ (s.audPort 1 7).inAt ≠ some (blockAt s.mtime) ∧ fld (s.routeFor 1 7 0) 43 24 ≠ noQueue ∧
     gives s (fld (s.routeFor 1 7 0) 23 4) [0x10000] = true ∧
     fld ((s.setReg .AUD_PORT_ROUTE (BitVec.ofNat 64 (noQueue * 2 ^ 24)) 1 7).routeFor 1 7 0) 43 24 = noQueue ∧
     (let u := s.setReg .AUD_PORT_ROUTE 0 1 7; fld (u.routeFor 1 7 0) 43 24 ≠ noQueue ∧ u.queues.get? (fld (u.routeFor 1 7 0) 23 4) = none)) ∧
    (let c : Capture := ⟨0, 0x10000, 10, true⟩; let s := State.at_ (audio 9 1 { AudPort.idle with capture := [c] } []) (10 ^ 6)
     (s.audPort 1 7).capture = c :: [] ∧ c.b + 10 ^ 6 ≤ s.mtime ∧ c.addr < 2 ^ 48 ∧ s0.mtime < c.b + 10 ^ 6) ∧
    (nominalRatio 0 < 2 ^ (F.AUD_PORT_RATIO_ratio.hi + 1 - F.AUD_PORT_RATIO_ratio.lo) ∧ s0.audActive 1 7 (blockAt s0.mtime) = false) ∧
    (let s := (audio 9 1 AudPort.idle []).put F.AUD_PORT_CFG_clk_src 1 1 7
     s.aligned 1 7 = false ∧ s.audActive 1 7 (blockAt s.mtime) = true ∧ ratioInBand (s.get F.AUD_PORT_CFG_rate 1 7) 0 = false ∧
     ratioInBand (s.get F.AUD_PORT_CFG_rate 1 7) (nominalRatio 0) = true ∧ s.flag F.AUD_PORT_STAT_locked 1 7 = true) ∧
    (audio 9 1 AudPort.idle []).aligned 1 7 = true ∧
    (let c0 : List Byte := List.replicate 24 0; let c1 : List Byte := 1 :: List.replicate 22 0 ++ [BitVec.ofNat 8 (crcc (1 :: List.replicate 22 0))]
     let s := (audio 9 1 AudPort.idle []).put F.AUD_PORT_CFG_mode 2 1 7
     s.audActive 1 7 (blockAt s.mtime) = true ∧ s.get F.AUD_PORT_CFG_mode 1 7 = 2 ∧ bAt c1 0 % 2 = 1 ∧
     (∀ c ∈ [c0, c1], bAt c 0 % 2 = 1 → crcc (c.take 23) = bAt c 23)) ∧
    (audio 9 1 AudPort.idle []).get F.AUD_PORT_CFG_mode 1 7 ≠ 2 := by
  refine ⟨?_, ?_, ?_, ?_, ?_, ?_, ?_, ?_⟩ <;> decide +kernel

theorem hyps_AudioRegistersTakeEffect :
    (s0.admits m0 ∧ s0.flag F.AUD_PORT_CFG_en 1 7 = false ∧ audCfgRefused ((0 : Reg64) ||| 0x8000000000000000) = false ∧
      audCfgRefused (BitVec.ofNat 64 (3 * 2 ^ 61) ||| 0x8000000000000000) = true ∧ (s0.put F.AUD_CTRL_en 1 1).get F.AUD_CTRL_en 1 = 1 ∧ s0.get F.AUD_STATUS_state 1 ≤ 1 ∧ fld (0 : Reg64) 60 59 = 0) ∧
    (let s := audio 9 1 AudPort.idle []; let v := s.reg .AUD_PORT_CFG 1 7
     s.admits m0 ∧ s.flag F.AUD_PORT_CFG_en 1 7 = true ∧
     putFld (codedWrite RegName.AUD_PORT_CFG.info (s.reg .AUD_PORT_CFG 1 7) (v &&& 0x7FFFFFFFFFFFFFFF)) 63 63 1 = s.reg .AUD_PORT_CFG 1 7) ∧
    (s0.flag F.AUD_NET_CFG_en 1 15 = false ∧
     (fld (BitVec.ofNat 64 (7 * 2 ^ 43)) 48 43 < 8 ∧ bit (BitVec.ofNat 64 (2 ^ 49 + 8 * 2 ^ 43)) 49 = true ∧
      bit (BitVec.ofNat 64 (8 * 2 ^ 43)) 49 = false ∧ 8 ≤ fld (BitVec.ofNat 64 (8 * 2 ^ 43)) 48 43)) := by
  unfold State.admits; decide +kernel

/-- Two addresses in one tile have one place. -/
theorem tilePlace_tile (s : State) (a b : Nat) (h : a / 512 = b / 512) : s.tilePlace a = s.tilePlace b := by
  have e1 : a / 2 ^ 34 = b / 2 ^ 34 := by omega
  have e2 : a % 2 ^ 34 / 512 = b % 2 ^ 34 / 512 := by omega
  have e3 : a % 2 ^ 34 / 2 ^ 32 = b % 2 ^ 34 / 2 ^ 32 := by omega
  have e4 : a % 2 ^ 34 % 2 ^ 32 / 512 = b % 2 ^ 34 % 2 ^ 32 / 512 := by omega
  have e5 : a % 2 ^ 34 / 2 ^ 26 = b % 2 ^ 34 / 2 ^ 26 := by omega
  have e6 : a % 2 ^ 34 % 2 ^ 26 / 512 = b % 2 ^ 34 % 2 ^ 26 / 512 := by omega
  simp only [State.tilePlace, e1, e2, e3, e4, e5, e6]

theorem tileBase_tile (s : State) (a b : Nat) (h : a / 512 = b / 512) : s.tileBase a = s.tileBase b := by
  simp only [State.tileBase, tilePlace_tile s a b h]

/-- A product at the limit, a wrap upward, a wrap downward and the ledger's ends. -/
theorem hyps_AccumulatorsKeepTheExactSum :
    (∀ b ∈ [40, 80], (b = 40 ∨ b = 80) ∧
      (∀ x ∈ [((2 ^ (b - 1) - 1 : Int), (2 ^ (b - 1) - 1 : Int), (6 : Int)), (-(2 ^ (b - 1)) + 1, -(2 ^ (b - 1)), -7), (1, 2 ^ (b - 1) - 1, 7), (-1, -(2 ^ (b - 1)), -8)],
        -(2 ^ (b - 1) : Int) < x.1 ∧ x.1 < 2 ^ (b - 1) ∧ -(2 ^ (b - 1) : Int) ≤ x.2.1 ∧ x.2.1 < 2 ^ (b - 1) ∧ (-8 ≤ x.2.2 ∧ x.2.2 ≤ 7))) ∧
    ((8 : Int) > 7 ∧ (-9 : Int) < -8) ∧ (3 < 4 ∧ (⟨true, false, true, true, false, 0⟩ : MacCtl).paired = true) ∧
    (∀ b ∈ [40, 80], let ps : List Int := [2 ^ (b - 1), 2 ^ (b - 1), -(2 ^ (b - 1)), 0]
      (∀ p ∈ ps, -(2 ^ (b - 1) : Int) ≤ p ∧ p ≤ 2 ^ (b - 1)) ∧ (ps.foldl (fun l p => Lane.acc b l p) Lane.zero).lost = false) ∧
    ((40 = 40 ∧ 16 = 16 ∧ 24 ≤ 24) ∧ (32 = 32 ∧ 8 ≤ 8) ∧ (80 = 80 ∧ 24 = 24 ∧ 56 ≤ 56)) := by decide +kernel

/-- Core n running with what it holds; tasks run as `held` has them. -/
def running (n : Nat) (c : Core) : State := { (s0.setCore n { c with started := true, held := false }) with stnMem := [] }

def addi : Bundle := ⟨.scalar .add 1 2 (.imm (-1)), .nop, .nop, .nop⟩

theorem hyps_BundlesTouchOnlyTheirRegisters :
    isControl 543 = false ∧ (running 543 Core.cold).canIssue 543 = true ∧ ((running 543 Core.cold).core 543).loops = [] ∧
    (match exec (.bundleExecute 543 addi) (running 543 Core.cold) with | .next _ => true | _ => false) = true ∧
    CReg.g 1 ∈ [addi.s0, addi.s1, addi.s2, addi.s3].flatMap destsOf ∧ CReg.g 2 ∉ [addi.s0, addi.s1, addi.s2, addi.s3].flatMap destsOf := by
  decide +kernel

/-- The task of record 0x10000 runs on core 543, logical core 511, on account 5. -/
def tasked (known : Bool) : State :=
  let s := running 543 { Core.cold with task := some 0x10000 }
  { s with dis := { s.dis with tasks := [⟨0x10000, 63, 5, 9, 0, .running 511⟩], news := [(5, true)], heard := [(.core 543, bnat known)] } }

/-- A bundle that is not legal: two slots write g1. -/
def clash : Bundle := ⟨.scalar .add 1 2 (.imm 0), .scalar .add 1 2 (.imm 0), .nop, .nop⟩

theorem hyps_BundlesCompleteOrTrap :
    (let s := running 543 Core.cold; let c := s.core 543
     s.canIssue 543 = true ∧ isControl 543 = false ∧ ((s.taskAccount 543).map (fun a => s.knowsOut (.core 543) a)).getD false = false ∧ c.loops = [] ∧
     c.pc < 4096 ∧ c.task = none ∧ scalarOp .add (c.gr 2) (BitVec.ofInt 64 (-1)) = some (BitVec.allOnes 64) ∧ 6 < 7) ∧
    (let s := tasked false; let c := s.core 543
     s.canIssue 543 = true ∧ ((s.taskAccount 543).map (fun a => s.knowsOut (.core 543) a)).getD false = false ∧ c.task = some 0x10000 ∧
     bundleLegal false c clash = false) ∧
    (let s := running 1039 { Core.cold with psr := 1 }; let c := s.core 1039
     s.canIssue 1039 = true ∧ isControl 1039 = true ∧ bit c.psr 0 = true ∧ fld c.ptbr 47 12 = 0 ∧ bundleLegal true c clash = false ∧ c.loops = []) ∧
    (let s := tasked true
     s.canIssue 543 = true ∧ isControl 543 = false ∧ (s.core 543).task = some 0x10000 ∧ s.taskAccount 543 = some 5 ∧ s.knowsOut (.core 543) 5 = true) ∧
    (let s := running 543 Core.cold; let c := s.core 543
     s.canIssue 543 = true ∧ (0 < 7 ∧ condMet 0 (c.gr 1) = true) ∧ (2 < 7 ∧ condMet 2 (c.gr 31) = false)) ∧
    (let s := running 1039 { Core.cold with psr := 5, epc := BitVec.allOnes 64 }; let c := s.core 1039
     s.canIssue 1039 = true ∧ isControl 1039 = true ∧ bit c.psr 0 = true ∧ fld c.ptbr 47 12 = 0 ∧ c.loops = []) := by decide +kernel

/-- A source, prioritized, aimed and pending at target 15 (control core 15). -/
def pending (act : Bool) : State :=
  let s := (s0.put F.INC_SRC_prio 7 0 4095).put F.INC_SRC_target 15 0 4095
  { s with inc := { s.inc with src := [(4095, ⟨!act, act, 15, false⟩)], claims := if act then [(15, [(4095, 0)])] else [], running := if act then [(15, 7)] else [] } }

theorem hyps_CoresReceiveTheirReplies :
    (∀ i ∈ [0, 31], let c : Core := { Core.cold with wait := .load (.g i) 8 true (2 ^ 34 - 8) }; let s := live.setCore 543 c
     (s.core 543).wait = .load (.g i) 8 true (2 ^ 34 - 8) ∧ s.tilePlace (2 ^ 34 - 8) ≠ none) ∧
    (isControl 543 = false ∧ (tasked false).taskAccount 543 = some 5 ∧ isControl 1039 = true ∧ s0.taskAccount 543 = none) ∧
    ((s0.setCore 543 { Core.cold with wait := .store }).core 543).wait = .store ∧
    (let c : Core := { Core.cold with wait := .queue 31 (some 63), replies := [(7, some 9)], posted := 1 }; let s := s0.setCore 543 c
     (s.core 543).wait = .queue 31 (some 63) ∧ (s.core 543).replies = (7, some 9) :: [] ∧ s.pushesOut 543 < (s.core 543).posted ∧ (s.core 543).posted ≠ 0) ∧
    (let c : Core := { Core.cold with ops := [.push 9 0 true], posted := 1 }; let s := s0.setCore 543 c
     (s.core 543).posted ≤ s.pushesOut 543 ∧ (s.core 543).posted ≠ 0 ∧ (s.core 543).wait = .no ∧ (s.core 543).replies = []) ∧
    (let c : Core := { Core.cold with syncing := true, moves := [⟨0, 512, 1, 9, 1, some 3, 0, 0, none⟩] }; let s := s0.setCore 543 c
     (s.core 543).syncing = true ∧ (s.core 543).posted = 0 ∧ (∀ m ∈ (s.core 543).moves, m.wait ≠ none)) ∧
    (let c : Core := { Core.cold with held := false, psr := 3, presented := some 4095 }; let s := (pending false).setCore 1039 c
     s.interruptible 1039 = true ∧ (s.core 1039).presented ≠ none ∧ (s.core 1039).wait = .no ∧ (s.core 1039).syncing = false ∧ (s.core 1039).sleep = false ∧
     bit Core.cold.psr 1 = false) ∧
    (let m : Move := ⟨0, 2 ^ 34 - 512, 1, 9, 1, none, 0, 0, none⟩; let s := live.setCore 1039 { Core.cold with moves := [m] }
     (s.core 1039).moves = [m] ∧ m.status = none ∧ isControl 1039 = true ∧ m.dst + 512 * m.done = 2 ^ 34 - 512 ∧ m.src + 512 * m.done = 0 ∧
     inDram 0 512 = true ∧ inDram (2 ^ 34 - 512) 512 = true ∧ (2 ^ 34 - 512) % 512 = 0 ∧ s.guarded 0 = false ∧ s.guarded (2 ^ 34 - 512) = false ∧
     s.tileBase (2 ^ 34 - 512) ≠ none ∧ s.memOk) ∧
    (∀ w ∈ [some 31, none], let m : Move := ⟨0, 512, 1, 9, 1, w, 0, 1, some 3⟩; let s := s0.setCore 543 { Core.cold with moves := [m], wait := .move 31 }
     (s.core 543).moves = [m] ∧ m.status = some 3 ∧ m.wait = w ∧ (s.core 543).wait = .move 31) ∧
    (s0.core 543).moves = [] := by
  unfold State.memOk
  refine ⟨?_, ?_, ?_, ?_, ?_, ?_, ?_, ?_, ?_, ?_⟩ <;> decide +kernel

theorem hyps_InterruptsAreClaimedAndEnded :
    (0 < 4095 ∧ levelSource 4095 = false ∧ (pending false).get F.INC_SRC_prio 0 4095 ≠ 0 ∧ s0.get F.INC_SRC_prio 0 4095 = 0) ∧
    (s0.admits m0 ∧ 3 < 4 ∧ ownMaster 15 = .ctl 15 ∧ (pending false).reaches (ownMaster 15) = true ∧ (pending false).presentable 15 = some 4095 ∧
     s0.presentable 15 = none ∧ s0.reaches (ownMaster 15) = true) ∧
    ((pending true).stackOf 15 = [(4095, 0)] ∧ (pending true).reaches (ownMaster 15) = true ∧ s0.stackOf 15 = []) ∧
    ((s0.cluster 3).held = true ∧ ({ s0 with sys := { s0.sys with clusters := [(3, ⟨false, true, 0, none⟩)] } } : State).cluster 3 = ⟨false, true, 0, none⟩) ∧
    (let s := (pending false).setCore 1039 { Core.cold with sleep := true }
     (s.core (1024 + 15)).sleep = true ∧ s.named (1024 + 15) = true ∧ bit (s.core (1024 + 15)).psr 1 = false) ∧
    (let s := (pending false).setCore 1039 { Core.cold with sleep := true, psr := 2, held := false }; let c := s.core (1024 + 15)
     c.sleep = true ∧ s.named (1024 + 15) = true ∧ bit c.psr 1 = true ∧ c.held = false ∧ s.presentable 15 ≠ none ∧ c.wait = .no ∧ c.syncing = false) ∧
    (∀ d ∈ [0, 1], let s := (pending false).put F.INC_SRC_target (16 + d) 0 4095
     d < 2 ∧ s.presentable (16 + d) ≠ none ∧ s.inc.doorbell.getD d false = false ∧ (s.put F.INC_DB_CTRL_en 1 0 d).presentable (16 + d) ≠ none ∧
     (s.put F.INC_DB_CTRL_en 1 0 d).flag F.INC_DB_CTRL_en 0 d = true ∧
     ({ s with inc := { s.inc with doorbell := [(0, true), (1, true)] } } : State).inc.doorbell.getD d false = true) ∧
    (levelSource 512 = true ∧ s0.presentable 0 = none) ∧
    (15 < 18 ∧ 4094 < 4096 ∧ (pending true).reaches (ownMaster 15) = true ∧ ((pending true).stackOf 15).head?.map (·.1) ≠ some 4094) ∧
    s0.named 1039 = false ∧ (s0.core 543).sleep = false := by
  unfold State.admits; decide +kernel

/-- A key command at the last slot of bank 15. -/
def keying (op : Nat) : State :=
  { (ranged.put F.SEC_KEY_BASE_base 1) with sec := { s0.sec with keyCmd := some ⟨op, 255, 15, 65535, 0, none⟩ } }

theorem keying_backed : ∀ op ∈ [1, 2], ∀ k, k < 128 → (keying op).tileBase ((keying op).slotAddr 15 65535 + k) ≠ none := by
  have a : ∀ op ∈ [1, 2], (keying op).slotAddr 15 65535 = 135266176 ∧ (keying op).tileBase 135266176 ≠ none := by decide +kernel
  intro op ho k hk
  rw [(a op ho).1, tileBase_tile _ (135266176 + k) 135266176 (by omega)]; exact (a op ho).2

theorem hyps_KeysAlarmsAndRandomValues :
    (s0.admits m0 ∧ s0.sec.keyCmd = none ∧ (1 = 1 ∨ 1 = 2) ∧ (2 = 1 ∨ 2 = 2)) ∧
    (∀ op ∈ [1, 2], let c : Cmd := ⟨op, 255, 15, 65535, 0, none⟩
      (keying op).admits m0 ∧ (keying op).sec.keyCmd ≠ none ∧ (keying op).sec.keyCmd = some c ∧ (keying op).memOk) ∧
    (∀ op ∈ [1, 2], ∀ k, k < 128 → (keying op).tileBase ((keying op).slotAddr 15 65535 + k) ≠ none) ∧
    (256 > 255 ∧ 16 > 15 ∧ 65536 > 65535 ∧ ∀ b ∈ [0, 1, 2], b < 4 ∧ b ≠ 3) ∧
    (∀ b ∈ [0, 1, 2, 3], ((s0.put F.SEC_ALARM_EN_en 15).get F.SEC_ALARM_EN_en).testBit b = true ∧ ((s0.put F.SEC_ALARM_EN_en 0).get F.SEC_ALARM_EN_en).testBit b = false) ∧
    ((s0.put F.SEC_ALARM_EN_en 15).admits m0 ∧ (s0.put F.SEC_ALARM_EN_en 0).admits m0) ∧
    (∀ n ∈ [0, 1], let s := s0.setReg .SEC_STATUS (putFld 0 F.SEC_STATUS_rng_stale.hi F.SEC_STATUS_rng_stale.lo n)
      s.admits m0 ∧ s.flag F.SEC_STATUS_rng_stale = decide (n = 1)) ∧
    ((State.at_ s0 (10 ^ 10)).admits m0 ∧ (State.at_ s0 (10 ^ 10)).sec.reseedAt + 10 ^ 10 ≤ (State.at_ s0 (10 ^ 10)).upNs ∧ s0.upNs < s0.sec.reseedAt + 10 ^ 10) := by
  unfold State.admits State.memOk
  exact ⟨by decide +kernel, by decide +kernel, keying_backed, by decide +kernel, by decide +kernel, by decide +kernel, by decide +kernel, by decide +kernel⟩

/-- A request for the lock of engine 95, and a job in queue 10. -/
def booked (op kind holder : Nat) : State :=
  let s := (((live.put F.SEC_REQ_QUEUE_en 1).put F.SEC_REQ_QUEUE_queue 9).put F.SEC_LOCK_kind kind 0 95).put F.SEC_LOCK_holder holder 0 95
  let w : Word := BitVec.ofNat 128 (op * 2 ^ 124 + 3 * 2 ^ 121 + 95 * 2 ^ 114 + 15 * 2 ^ 75 + 10 * 2 ^ 43 + noQueue * 2 ^ 23)
  { s with
    queues := [(9, fq [[w]]), (10, fq [[BitVec.ofNat 128 (op * 2 ^ 124)]])],
    sec := { s.sec with jobQ := if kind = 0 then [] else [(95, 10)] } }

theorem hyps_EnginesServeTheirHolder :
    (∀ q ∈ [(1, 0, 0), (1, 3, 14), (2, 3, 15)], let s := booked q.1 q.2.1 q.2.2
      let w : Word := BitVec.ofNat 128 (q.1 * 2 ^ 124 + 3 * 2 ^ 121 + 95 * 2 ^ 114 + 15 * 2 ^ 75 + 10 * 2 ^ 43 + noQueue * 2 ^ 23)
      s.flag F.SEC_REQ_QUEUE_en = true ∧ gives s (s.get F.SEC_REQ_QUEUE_queue) [w] = true ∧ fld w 127 124 = q.1 ∧ fld w 123 121 = 3 ∧
      fld w 120 114 = 95 ∧ 4 ≤ 95 % 6 ∧ fld w 42 23 = noQueue ∧ fld w 113 75 = 15 ∧ s.get F.SEC_LOCK_kind 0 95 = q.2.1 ∧ s.get F.SEC_LOCK_holder 0 95 = q.2.2) ∧
    (let s := booked 1 3 15
     ({ s with sys := { s.sys with clusters := [(3, ⟨true, true, 0, none⟩)] } } : State).lockLapsed 95 = true ∧ s0.lockLapsed 95 = false) ∧
    (∀ op ∈ [1, 2, 3, 4], let s := booked op 3 15
      s.sec.jobQ.get? 95 = some 10 ∧ s.sec.jobs.get? 95 = none ∧ gives s 10 [BitVec.ofNat 128 (op * 2 ^ 124)] = true ∧
      fld (BitVec.ofNat 128 (op * 2 ^ 124)) 127 124 = op ∧ s.knowsOut (.engine 95) (s.get F.SEC_LOCK_account 0 95) = false ∧
      ({ s with dis := { s.dis with news := [(0, true)], heard := [(.engine 95, 1)] } } : State).knowsOut (.engine 95) (s.get F.SEC_LOCK_account 0 95) = true) ∧
    (let j : EngJob := ⟨[0], 0, [], [], 0, some 1⟩; let s : State := { s0 with sec := { s0.sec with jobs := [(95, j)] } }
     s.sec.jobs.get? 95 = some j ∧ j.result = some 1) ∧
    (∀ op ∈ [1, 2, 3, 4], let j : EngJob := ⟨[BitVec.ofNat 128 (op * 2 ^ 124)], 4095, [], [], 512, none⟩
      let s : State := { s0 with sec := { s0.sec with jobs := [(95, j)] } }
      95 < 96 ∧ s.sec.jobs.get? 95 = some j ∧ j.result = none ∧ j.op = op ∧ s.knowsOut (.engine 95) j.account = false ∧
      ({ s with dis := { s.dis with news := [(4095, true)], heard := [(.engine 95, 1)] } } : State).knowsOut (.engine 95) j.account = true) ∧
    (s0.sec.jobs.get? 95 = none ∧ s0.sec.jobQ.get? 95 = none) := by
  refine ⟨?_, ?_, ?_, ?_, ?_, ?_⟩ <;> decide +kernel

/-- A captured event. -/
def event (code : Nat) : LogRec := ⟨0, code, 1, 2, 6, false, s0.get F.LOG_CTRL_mode, [], 0, 0, 0, false⟩

/-- The log book with what is captured, kept and flushed. -/
def logged (capture : List LogRec) (f : Option FlushRun) (slot : Nat) : State :=
  let s := ranged.put F.LOG_FLASH_en 1
  { s with log := { s.log with capture := capture, ring := [(4095, event 1)], flush := f, flushReq := true, flashSlot := slot } }

theorem logged_backed : ∀ k, k < 65536 → (logged [] none 0).tileBase (0 + k) ≠ none := by
  have h : ∀ q, q < 128 → (logged [] none 0).tileBase (512 * q) ≠ none := by decide +kernel
  intro k hk
  rw [tileBase_tile _ (0 + k) (512 * (k / 512)) (by omega)]
  exact h (k / 512) (by omega)

theorem hyps_EventsBecomeRecordsInFlash :
    (let e : LogRec := { event 5 with time := s0.stamp }
     (∀ x ∈ ([event 1] : List LogRec), x.same e = false) ∧ 16 ≤ (List.replicate 16 (event 1)).length ∧ (List.replicate 15 (event 1)).length < 16 ∧
     (event 5).same e = true) ∧
    (let s := logged [event 1] none 0
     s.log.capture = [event 1] ∧ s.log.openRec = none ∧ s.freeSlot 4096 (if s.log.used then s.log.newest + 1 else 0) = some 0 ∧
     (logged [] none 0).log.capture = [] ∧ 6 ≤ (event 1).severity) ∧
    (let s := logged [] none 0
     s.flag F.LOG_FLASH_en = true ∧ s.log.flush = none ∧ s.log.flushReq = true ∧ s.log.pendOver = 0 ∧ s.unflushed ≠ 0 ∧ s0.flag F.LOG_FLASH_en = false) ∧
    (let f : FlushRun := ⟨[4095], false⟩; let s := logged [] (some f) (2 ^ 20 - 1)
     s.log.flush = some f ∧ f.power = false ∧ s.log.ring.get? 4095 = some (event 1) ∧ s.log.flashSlot < 2 ^ 20 ∧ s.log.flashSlot % 4 = 3 ∧
     s.sectorErased ((s.log.flashSlot / 1024 + 1) % 1024) = true ∧ s.sectorErased ((s.log.flashSlot / 1024 + 2) % 1024) = true ∧ s.memOk ∧ s.log.flush ≠ none) ∧
    (let s := logged [] none 0
     s.admits m0 ∧ s.flag F.LOG_FLASH_en = true ∧ s.log.cmd = none ∧ s.memOk ∧ s.get F.LOG_RD_ADDR_addr = 0 ∧ (0 : Nat) % 512 = 0 ∧ s0.admits m0 ∧
     s0.flag F.LOG_FLASH_en = false ∧ 1023 < 1024) ∧
    (s0.log.flushReq = false ∧ s0.log.flushSec = s0.nanos / 10 ^ 9) ∧
    (let f : FlushRun := ⟨[4095], false⟩; let s := logged [] (some f) (2 ^ 20 - 1)
     s.log.flush = some f ∧ f.power = false ∧ s.eraseAhead ≠ none ∧ s.log.flashSlot < 2 ^ 20 ∧ ∀ i ∈ f.left, s.log.ring.get? i ≠ none) ∧
    (let f : FlushRun := ⟨[], false⟩
     let s : State := { logged [] (some f) 1022 with flash := ((List.range 64).zip (event 1).flashBytes).map (fun e => ⟨65536 + e.1, e.2⟩) }
     s.log.flush = some f ∧ f.power = false ∧ s.eraseAhead = none) ∧
    (∀ k, k < 65536 → (logged [] none 0).tileBase (0 + k) ≠ none) := by
  unfold State.memOk State.admits
  exact ⟨by decide +kernel, by decide +kernel, by decide +kernel, by decide +kernel, by decide +kernel, by decide +kernel, by decide +kernel, by decide +kernel, logged_backed⟩

theorem hyps_EveryStepKeepsTheForms :
    ({ s0 with pending := [.leaseLapse] } : State).formsOk ∧
    (match step { s0 with pending := [.leaseLapse] } with | .next _ => true | _ => false) = true := by
  unfold State.formsOk State.memOk; decide +kernel

end Sys2Proof.Tests
end

section
/-! SUPPORT. Two's complement: `signed` and `unsigned` are inverse on the values that `b` bits hold. -/
namespace Sys2Proof

/-- The values of a signed number of `b` bits. -/
def FitsSigned (b : Nat) (z : Int) : Prop := -(2 ^ (b - 1) : Int) ≤ z ∧ z < 2 ^ (b - 1)

theorem zero_lt_two_pow (n : Nat) : (0 : Int) < 2 ^ n := Int.pow_pos (by decide)

theorem two_pow_eq_double {b : Nat} (hb : 0 < b) : (2 : Int) ^ b = 2 * 2 ^ (b - 1) := by
  obtain ⟨k, rfl⟩ : ∃ k, b = k + 1 := ⟨b - 1, by omega⟩
  exact Int.pow_succ' 2 k

theorem natCast_two_pow (n : Nat) : ((2 ^ n : Nat) : Int) = 2 ^ n := Int.natCast_pow 2 n

theorem fitsSigned_signed {b : Nat} (hb : 0 < b) (n : Nat) : FitsSigned b (signed b n) := by
  have hlt := Nat.mod_lt n (Nat.two_pow_pos b)
  have hdouble := Nat.two_pow_pred_mul_two hb
  rw [FitsSigned, ← natCast_two_pow, signed]
  generalize n % 2 ^ b = r at *
  generalize 2 ^ b = N at *
  generalize 2 ^ (b - 1) = H at *
  split <;> omega

theorem unsigned_signed (b n : Nat) : unsigned b (signed b n) = n % 2 ^ b := by
  have hmod : ((n % 2 ^ b : Nat) : Int) % ((2 ^ b : Nat) : Int) = ((n % 2 ^ b : Nat) : Int) :=
    Int.emod_eq_of_lt (Int.natCast_nonneg _) (Int.ofNat_lt.2 (Nat.mod_lt n (Nat.two_pow_pos b)))
  rw [unsigned, signed]
  split
  · rw [hmod, Int.toNat_natCast]
  · rw [Int.sub_emod_right, hmod, Int.toNat_natCast]

theorem unsigned_lt (b : Nat) (z : Int) : unsigned b z < 2 ^ b := by
  have hN : (0 : Int) < ((2 ^ b : Nat) : Int) := Int.ofNat_lt.2 (Nat.two_pow_pos b)
  exact (Int.toNat_lt (Int.emod_nonneg z (Int.ne_of_gt hN))).2 (Int.emod_lt_of_pos z hN)

theorem signed_unsigned {b : Nat} (hb : 0 < b) {z : Int} (hz : FitsSigned b z) : signed b (unsigned b z) = z := by
  obtain ⟨hlo, hhi⟩ := hz
  have hdouble := Nat.two_pow_pred_mul_two hb
  have hmod : unsigned b z % 2 ^ b = unsigned b z := Nat.mod_eq_of_lt (unsigned_lt b z)
  rw [← natCast_two_pow] at hlo hhi
  rw [signed, hmod, unsigned]
  generalize 2 ^ b = N at *
  generalize 2 ^ (b - 1) = H at *
  by_cases h : 0 ≤ z
  · rw [Int.emod_eq_of_lt h (by omega), if_pos (by omega), Int.toNat_of_nonneg h]
  · rw [← Int.add_emod_right, Int.emod_eq_of_lt (by omega) (by omega), if_neg (by omega), Int.toNat_of_nonneg (by omega)]
    omega

end Sys2Proof
end

section
/-! SUPPORT. One product on one lane (09 R241): what it does to value, ledger and lost flag, and the invariant it keeps. -/
namespace Sys2Proof.Machine

/-- The `k` of R241's pseudocode: how often an exact sum wraps. -/
def wrapOf (b : Nat) (s : Int) : Int := if s ≥ 2 ^ (b - 1) then 1 else if s < -(2 ^ (b - 1) : Int) then -1 else 0

/-- The sum after its wrap, and the wrap, as the pseudocode computes them together. -/
theorem wrapped_pair_eq (b : Nat) (s : Int) :
    (if s ≥ 2 ^ (b - 1) then (s - 2 ^ b, 1) else if s < -(2 ^ (b - 1) : Int) then (s + 2 ^ b, -1) else (s, 0) : Int × Int) =
      (s - wrapOf b s * 2 ^ b, wrapOf b s) := by
  unfold wrapOf
  split
  · rw [Int.one_mul]
  · split
    · rw [Int.neg_mul, Int.one_mul, Int.sub_neg]
    · rw [Int.zero_mul, Int.sub_zero]

/-- The ledger takes the wrap where it can; otherwise the lane is lost, or stays so. -/
theorem Lane.acc_eq (b : Nat) (l : Lane) (p : Int) :
    l.acc b p =
      if l.lost = false ∧ -8 ≤ l.ledger + wrapOf b (l.v + p) ∧ l.ledger + wrapOf b (l.v + p) ≤ 7 then
        ⟨l.v + p - wrapOf b (l.v + p) * 2 ^ b, l.ledger + wrapOf b (l.v + p), false⟩
      else ⟨l.v + p - wrapOf b (l.v + p) * 2 ^ b, l.ledger, true⟩ := by
  obtain ⟨v, g, lost⟩ := l
  simp only [Lane.acc, wrapped_pair_eq]
  cases lost <;> simp

theorem Lane.acc_v (b : Nat) (l : Lane) (p : Int) : (l.acc b p).v = l.v + p - wrapOf b (l.v + p) * 2 ^ b := by
  rw [Lane.acc_eq]
  split <;> rfl

theorem Lane.acc_of_lost (b : Nat) {l : Lane} (p : Int) (hl : l.lost = true) :
    (l.acc b p).ledger = l.ledger ∧ (l.acc b p).lost = true := by simp [Lane.acc_eq, hl]

theorem Lane.acc_of_ledger_fits {b : Nat} {l : Lane} {p : Int} (hl : l.lost = false) (hlo : -8 ≤ l.ledger + wrapOf b (l.v + p))
    (hhi : l.ledger + wrapOf b (l.v + p) ≤ 7) :
    (l.acc b p).ledger = l.ledger + wrapOf b (l.v + p) ∧ (l.acc b p).lost = false := by simp [Lane.acc_eq, hl, hlo, hhi]

theorem Lane.acc_of_ledger_full {b : Nat} {l : Lane} {p : Int} (hl : l.lost = false)
    (h : l.ledger + wrapOf b (l.v + p) < -8 ∨ 7 < l.ledger + wrapOf b (l.v + p)) :
    (l.acc b p).ledger = l.ledger ∧ (l.acc b p).lost = true := by
  have hf : ¬ (-8 ≤ l.ledger + wrapOf b (l.v + p) ∧ l.ledger + wrapOf b (l.v + p) ≤ 7) := by omega
  simp [Lane.acc_eq, hl, hf]

/-- At most one wrap: a product of at most 2^(b-1) in size keeps the value within `b` bits. -/
theorem Lane.fits_acc {b : Nat} (hb : 0 < b) {l : Lane} {p : Int} (hv : FitsSigned b l.v)
    (hp : -(2 ^ (b - 1) : Int) ≤ p ∧ p ≤ 2 ^ (b - 1)) : FitsSigned b (l.acc b p).v := by
  obtain ⟨hlo, hhi⟩ := hv
  obtain ⟨hpl, hph⟩ := hp
  rw [Lane.acc_v, FitsSigned, two_pow_eq_double hb, wrapOf]
  generalize (2 : Int) ^ (b - 1) = H at *
  split
  · omega
  · split <;> omega

/-- The invariant of R241: the value fits its width and, while no wrap is lost, value and ledger together are the sum `n`. -/
structure Lane.Holds (b : Nat) (l : Lane) (n : Int) : Prop where
  fits : FitsSigned b l.v
  exact_sum : l.lost = false → l.v + l.ledger * 2 ^ b = n
  ledger_fits : l.lost = false → -8 ≤ l.ledger ∧ l.ledger ≤ 7

theorem Lane.holds_zero (b : Nat) : Lane.zero.Holds b 0 where
  fits := ⟨Int.neg_nonpos_of_nonneg (Int.le_of_lt (zero_lt_two_pow _)), zero_lt_two_pow _⟩
  exact_sum _ := by rw [Lane.zero, Int.zero_mul, Int.zero_add]
  ledger_fits _ := by decide

/-- A lane that is not lost after a product was not lost before it, and its ledger took the wrap. -/
theorem Lane.kept_of_acc_kept {b : Nat} {l : Lane} {p : Int} (h : (l.acc b p).lost = false) :
    l.lost = false ∧ (l.acc b p).ledger = l.ledger + wrapOf b (l.v + p) ∧
      -8 ≤ l.ledger + wrapOf b (l.v + p) ∧ l.ledger + wrapOf b (l.v + p) ≤ 7 := by
  rw [Lane.acc_eq] at h ⊢
  by_cases hk : l.lost = false ∧ -8 ≤ l.ledger + wrapOf b (l.v + p) ∧ l.ledger + wrapOf b (l.v + p) ≤ 7
  · rw [if_pos hk]
    exact ⟨hk.1, rfl, hk.2⟩
  · rw [if_neg hk] at h
    cases h

/-- The step lemma: a product takes a lane that holds `n` to one that holds `n + p`. -/
theorem Lane.Holds.acc {b : Nat} (hb : 0 < b) {l : Lane} {n p : Int} (h : l.Holds b n)
    (hp : -(2 ^ (b - 1) : Int) ≤ p ∧ p ≤ 2 ^ (b - 1)) : (l.acc b p).Holds b (n + p) where
  fits := Lane.fits_acc hb h.fits hp
  exact_sum hd := by
    obtain ⟨hl, hledger, -⟩ := Lane.kept_of_acc_kept hd
    have hsum := h.exact_sum hl
    rw [hledger, Lane.acc_v, Int.add_mul]
    omega
  ledger_fits hd := by
    obtain ⟨-, hledger, hfits⟩ := Lane.kept_of_acc_kept hd
    rwa [hledger]

theorem Lane.Holds.foldl_acc {b : Nat} (hb : 0 < b) (ps : List Int)
    (hps : ∀ p ∈ ps, -(2 ^ (b - 1) : Int) ≤ p ∧ p ≤ 2 ^ (b - 1)) :
    ∀ {l : Lane} {n : Int}, l.Holds b n → (ps.foldl (fun l p => Lane.acc b l p) l).Holds b (n + ps.sum) := by
  induction ps with
  | nil =>
    intro l n h
    rw [List.sum_nil, Int.add_zero]
    exact h
  | cons p ps ih =>
    intro l n h
    rw [List.forall_mem_cons] at hps
    rw [List.foldl_cons, List.sum_cons, ← Int.add_assoc]
    exact ih hps.2 (h.acc hb hps.1)

end Sys2Proof.Machine
end

section
/-! SUPPORT. The saturating stores (09 R242): a lane that holds a sum gives that sum rounded half up and clamped. -/
namespace Sys2Proof.Machine

/-- A number shifted right, rounded half up (R242). -/
def roundShift (n : Int) (shift : Nat) : Int := if shift = 0 then n else (n + 2 ^ (shift - 1)) / 2 ^ shift

theorem roundShift_zero (n : Int) : roundShift n 0 = n := rfl

theorem roundShift_of_pos {shift : Nat} (n : Int) (hs : 0 < shift) :
    roundShift n shift = (n + 2 ^ (shift - 1)) / 2 ^ shift := if_neg (Nat.ne_of_gt hs)

theorem le_roundShift {m n : Int} {shift : Nat} (h : m * 2 ^ shift ≤ n) : m ≤ roundShift n shift := by
  rcases Nat.eq_zero_or_pos shift with rfl | hs
  · rw [roundShift_zero]
    omega
  · rw [roundShift_of_pos n hs, Int.le_ediv_iff_mul_le (zero_lt_two_pow shift)]
    have hhalf := zero_lt_two_pow (shift - 1)
    omega

theorem roundShift_le {m n : Int} {shift : Nat} (h : n < m * 2 ^ shift) : roundShift n shift ≤ m := by
  rcases Nat.eq_zero_or_pos shift with rfl | hs
  · rw [roundShift_zero]
    omega
  · rw [roundShift_of_pos n hs, ← Int.lt_add_one_iff, Int.ediv_lt_iff_lt_mul (zero_lt_two_pow shift), Int.add_mul, Int.one_mul]
    have hhalf := zero_lt_two_pow (shift - 1)
    have hdouble := two_pow_eq_double hs
    omega

/-- The value that a saturating store gives of a lane with no wrap lost. -/
theorem satValue_of_kept {l : Lane} (shift width : Nat) (hl : l.lost = false) :
    satValue l shift width =
      if l.ledger > 0 then 2 ^ (width - 1) - 1
      else if l.ledger < 0 then -(2 ^ (width - 1))
      else clampInt (roundShift l.v shift) (-(2 ^ (width - 1))) (2 ^ (width - 1) - 1) := by
  have hround : (if shift > 0 then (l.v + 2 ^ (shift - 1)) / 2 ^ shift else l.v) = roundShift l.v shift := by
    rcases Nat.eq_zero_or_pos shift with rfl | hs
    · rfl
    · rw [if_pos hs, roundShift_of_pos l.v hs]
  have hsat : (l.lost || l.ledger != 0) = true ↔ l.ledger ≠ 0 := by rw [hl, Bool.false_or, bne_iff_ne]
  simp only [satValue, hround]
  rcases Int.lt_trichotomy l.ledger 0 with hg | hg | hg
  · rw [if_pos (hsat.2 (by omega)), if_neg (by omega), if_neg (by omega), if_pos hg]
  · rw [if_neg (mt hsat.1 (by omega)), if_neg (by omega), if_neg (by omega)]
  · rw [if_pos (hsat.2 (by omega)), if_pos hg, if_pos hg]

/-- Any sum outside the accumulator's range is outside the output's range after an allowed shift, so the ledger's sign gives
the clamped value; with an empty ledger the value is the sum. -/
theorem Lane.Holds.satValue {b : Nat} {l : Lane} {n : Int} (h : l.Holds b n) (hl : l.lost = false) {shift width : Nat}
    (hw : 0 < width) (hs : shift + width ≤ b) :
    satValue l shift width = clampInt (roundShift n shift) (-(2 ^ (width - 1))) (2 ^ (width - 1) - 1) := by
  obtain ⟨hlo, hhi⟩ := h.fits
  have hsum := h.exact_sum hl
  have hpow : (2 : Int) ^ (width - 1) * 2 ^ shift ≤ 2 ^ (b - 1) := by
    have hle : 2 ^ (width - 1 + shift) ≤ 2 ^ (b - 1) := Nat.pow_le_pow_right (by decide) (by omega)
    rw [← Int.pow_add, ← natCast_two_pow, ← natCast_two_pow]
    exact Int.ofNat_le.2 hle
  have hdouble := two_pow_eq_double (by omega : 0 < b)
  have hB := zero_lt_two_pow b
  have hW := zero_lt_two_pow (width - 1)
  rw [satValue_of_kept shift width hl]
  split
  next hpos =>
    have hmul := Int.mul_le_mul_of_nonneg_right (show 1 ≤ l.ledger by omega) (Int.le_of_lt hB)
    have hr : (2 : Int) ^ (width - 1) ≤ roundShift n shift := le_roundShift (by omega)
    rw [clampInt, Int.min_eq_right (by omega), Int.max_eq_right (by omega)]
  next hpos =>
    split
    next hneg =>
      have hmul := Int.mul_le_mul_of_nonneg_right (show l.ledger ≤ -1 by omega) (Int.le_of_lt hB)
      have hr : roundShift n shift ≤ -(2 ^ (width - 1)) := roundShift_le (by rw [Int.neg_mul]; omega)
      rw [clampInt, Int.min_eq_left (by omega), Int.max_eq_left hr]
    next hneg =>
      have hg : l.ledger = 0 := by omega
      rw [← hsum, hg, Int.zero_mul, Int.add_zero]

end Sys2Proof.Machine
end

section
/-! SUPPORT. Pairs (09 R229, R241): 80 bits stand in two lanes, and MAC updates them as one lane of 80 bits. -/
namespace Sys2Proof.Machine

theorem Accum.pair_of_lanes {a : Accum} {i : Nat} {v w g : Int} {lost : Bool} (hlo : a.lane (2 * i) = ⟨v, 0, false⟩)
    (hhi : a.lane (2 * i + 1) = ⟨w, g, lost⟩) :
    a.pair i = ⟨signed 80 (unsigned 40 v + unsigned 40 w * 2 ^ 40), g, lost⟩ := by rw [Accum.pair, hlo, hhi]

theorem Accum.pair_flags_of_lane {a : Accum} {i : Nat} {w g : Int} {lost : Bool} (h : a.lane (2 * i + 1) = ⟨w, g, lost⟩) :
    (a.pair i).ledger = g ∧ (a.pair i).lost = lost := by
  rw [Accum.pair, h]; exact ⟨rfl, rfl⟩

/-- A pair uses the ledger and lost flag of its upper lane. The kernel would unfold `a.pair i = a.lane (2 * i + 1)` to settle the
two by `rfl`, so they go through the variables of `Accum.pair_flags_of_lane`. -/
theorem Accum.pair_flags (a : Accum) (i : Nat) :
    (a.pair i).ledger = (a.lane (2 * i + 1)).ledger ∧ (a.pair i).lost = (a.lane (2 * i + 1)).lost :=
  Accum.pair_flags_of_lane rfl

theorem Accum.fits_pair (a : Accum) (i : Nat) : FitsSigned 80 (a.pair i).v := fitsSigned_signed (by decide) _

theorem natAbs_signed_le {b : Nat} (hb : 0 < b) (n : Nat) : (signed b n).natAbs ≤ 2 ^ (b - 1) := by
  have hfits := fitsSigned_signed hb n
  rw [FitsSigned, ← natCast_two_pow] at hfits
  omega

/-- The products of R240 lie well within every accumulator. -/
theorem natAbs_macProduct_le (x : MacCtl) (wa wb : Word) (i : Nat) : (macProduct x wa wb i).natAbs ≤ 2 ^ 46 := by
  have h16 (n : Nat) : (signed 16 n).natAbs ≤ 2 ^ 15 := natAbs_signed_le (by decide) n
  have h24 (n : Nat) : (signed 24 n).natAbs ≤ 2 ^ 31 := Nat.le_trans (natAbs_signed_le (by decide) n) (by decide)
  have h32 (n : Nat) : (signed 32 n).natAbs ≤ 2 ^ 31 := natAbs_signed_le (by decide) n
  have hmul {y z : Int} (hy : y.natAbs ≤ 2 ^ 31) (hz : z.natAbs ≤ 2 ^ 15) : (y * z).natAbs ≤ 2 ^ 46 := by
    rw [Int.natAbs_mul]
    exact Nat.le_trans (Nat.mul_le_mul hy hz) (by decide)
  unfold macProduct
  split
  · refine hmul ?_ (h16 _)
    split
    · exact h24 _
    · exact h32 _
  · exact hmul (Nat.le_trans (h16 _) (by decide)) (h16 _)

/-- What pair `i` holds after a product in paired mode. -/
def Accum.macPair (a : Accum) (x : MacCtl) (wa wb : Word) (i : Nat) : Lane :=
  Lane.acc 80 ((if x.clear then Accum.clear true else a).pair i) (if x.neg then -(macProduct x wa wb i) else macProduct x wa wb i)

theorem Accum.fits_macPair (a : Accum) (x : MacCtl) (wa wb : Word) (i : Nat) : FitsSigned 80 (a.macPair x wa wb i).v := by
  have hm := natAbs_macProduct_le x wa wb i
  refine Lane.fits_acc (by decide) (Accum.fits_pair _ i) ?_
  split <;> omega

theorem Accum.mac_lanes_of_paired (a : Accum) {x : MacCtl} (wa wb : Word) (hx : x.paired = true) :
    (a.mac x wa wb).lanes = (List.range 4).flatMap (fun i => pairLanes (a.macPair x wa wb i)) := by
  simp [Accum.mac, Accum.macPair, hx]

/-- The lower lane of a pair after MAC: bits [39:0], with ledger and flag at zero. -/
theorem Accum.mac_lane_even (a : Accum) {x : MacCtl} (wa wb : Word) {i : Nat} (hx : x.paired = true) (hi : i < 4) :
    (a.mac x wa wb).lane (2 * i) = ⟨signed 40 (unsigned 80 (a.macPair x wa wb i).v), 0, false⟩ := by
  rw [Accum.lane, Accum.mac_lanes_of_paired a wa wb hx]
  obtain rfl | rfl | rfl | rfl : i = 0 ∨ i = 1 ∨ i = 2 ∨ i = 3 := by omega
  all_goals rfl

/-- The upper lane of a pair after MAC: bits [79:40], with the pair's ledger and flag. -/
theorem Accum.mac_lane_odd (a : Accum) {x : MacCtl} (wa wb : Word) {i : Nat} (hx : x.paired = true) (hi : i < 4) :
    (a.mac x wa wb).lane (2 * i + 1) =
      ⟨signed 40 (unsigned 80 (a.macPair x wa wb i).v / 2 ^ 40), (a.macPair x wa wb i).ledger, (a.macPair x wa wb i).lost⟩ := by
  rw [Accum.lane, Accum.mac_lanes_of_paired a wa wb hx]
  obtain rfl | rfl | rfl | rfl : i = 0 ∨ i = 1 ∨ i = 2 ∨ i = 3 := by omega
  all_goals rfl

/-- The two halves of 80 bits, each held as a signed lane of 40, make up the 80 bits. -/
theorem unsigned_halves {n : Nat} (hn : n < 2 ^ 80) :
    unsigned 40 (signed 40 n) + unsigned 40 (signed 40 (n / 2 ^ 40)) * 2 ^ 40 = n := by
  rw [unsigned_signed, unsigned_signed]
  omega

/-- A lane of 80 bits is what its two halves make up. -/
theorem Lane.eq_of_halves (l : Lane) (hl : FitsSigned 80 l.v) :
    (⟨signed 80 (unsigned 40 (signed 40 (unsigned 80 l.v)) + unsigned 40 (signed 40 (unsigned 80 l.v / 2 ^ 40)) * 2 ^ 40),
      l.ledger, l.lost⟩ : Lane) = l := by
  rw [unsigned_halves (unsigned_lt 80 l.v), signed_unsigned (by decide) hl]

/-- Both lanes of a pair after MAC, read together, are the pair's 80 bits. -/
theorem Accum.mac_lanes_bits (a : Accum) {x : MacCtl} (wa wb : Word) {i : Nat} (hx : x.paired = true) (hi : i < 4) :
    unsigned 40 ((a.mac x wa wb).lane (2 * i)).v + unsigned 40 ((a.mac x wa wb).lane (2 * i + 1)).v * 2 ^ 40 =
      unsigned 80 (a.macPair x wa wb i).v := by
  have hlo := congrArg Lane.v (a.mac_lane_even wa wb hx hi)
  have hhi := congrArg Lane.v (a.mac_lane_odd wa wb hx hi)
  rw [hlo, hhi, unsigned_halves (unsigned_lt 80 _)]

/-- MAC in paired mode acts on pair `i` as R241's pseudocode on one lane of 80 bits. -/
theorem Accum.mac_pair (a : Accum) {x : MacCtl} (wa wb : Word) {i : Nat} (hx : x.paired = true) (hi : i < 4) :
    (a.mac x wa wb).pair i = a.macPair x wa wb i :=
  (Accum.pair_of_lanes (a.mac_lane_even wa wb hx hi) (a.mac_lane_odd wa wb hx hi)).trans
    (Lane.eq_of_halves _ (a.fits_macPair x wa wb i))

end Sys2Proof.Machine
end

section
/-! The obligation of 09 R241 and R242. -/
namespace Sys2Proof.Machine

/-- Settles O51: `Lane.acc_v` and its companions give the update, `Accum.mac_pair` the pairs, and the invariant `Lane.Holds`, kept by
every product, the exact sum and what a saturating store makes of it. -/
theorem accumulatorsKeepTheExactSum : Obligations.AccumulatorsKeepTheExactSum := by
  unfold Obligations.AccumulatorsKeepTheExactSum
  refine ⟨fun b l p hb hpl hph hlo hhi => ?_, fun a x wa wb i hx hi => ?_, fun b ps hb hps hlost => ?_⟩
  · obtain ⟨hvlo, hvhi⟩ : FitsSigned b (l.acc b p).v :=
      Lane.fits_acc (by omega) ⟨hlo, hhi⟩ ⟨Int.le_of_lt hpl, Int.le_of_lt hph⟩
    exact ⟨Lane.acc_v b l p, hvlo, hvhi, Lane.acc_of_lost b p, Lane.acc_of_ledger_fits, Lane.acc_of_ledger_full⟩
  · have hpair := a.mac_pair wa wb hx hi
    have hlower := a.mac_lane_even wa wb hx hi
    have hbits := hpair ▸ a.mac_lanes_bits wa wb hx hi
    obtain ⟨hledger, hlost⟩ := (a.mac x wa wb).pair_flags i
    exact ⟨hpair, by rw [hlower], by rw [hlower], hbits, hledger.symm, hlost.symm⟩
  · have hpos : 0 < b := by omega
    have h := Lane.Holds.foldl_acc hpos ps hps (Lane.holds_zero b)
    rw [Int.zero_add] at h
    obtain ⟨hlo, hhi⟩ := h.fits
    obtain ⟨hmin, hmax⟩ := h.ledger_fits hlost
    refine ⟨h.exact_sum hlost, hlo, hhi, hmin, hmax, fun shift width hsw => ?_⟩
    exact h.satValue hlost (by omega) (by omega)

end Sys2Proof.Machine
end

section
/-! SUPPORT. Words of memory as numbers: the bytes of a number give the number back. -/
namespace Sys2Proof

@[simp] theorem length_leBytes (k : Nat) : ∀ n, (leBytes k n).length = k := by
  induction k with
  | zero => intro n; rfl
  | succ k ih => intro n; rw [leBytes, List.length_cons, ih]

theorem leNat_leBytes (k : Nat) : ∀ n, leNat (leBytes k n) = n % 256 ^ k := by
  induction k with
  | zero => intro n; rw [Nat.pow_zero, Nat.mod_one]; rfl
  | succ k ih =>
    intro n
    rw [leBytes, leNat, ih, BitVec.toNat_ofNat, Nat.pow_succ' (n := k)]
    exact Nat.mod_mul.symm

theorem ofNat_leNat_leBytes (w : Word) : BitVec.ofNat 128 (leNat (leBytes 16 w.toNat)) = w := by
  rw [leNat_leBytes, Nat.mod_eq_of_lt (by omega : w.toNat < 256 ^ 16), BitVec.ofNat_toNat, BitVec.setWidth_eq]

end Sys2Proof

namespace Sys2Proof.Machine

/-- Bytes read apart from a run that is written are as before. -/
theorem Mem.gets_sets_apart {d : Byte} {m : Mem} (h : Mem.wf d m = true) {a : Nat} (bs : List Byte) (n : Nat) :
    ∀ {x : Nat}, x + n ≤ a ∨ a + bs.length ≤ x → Mem.gets d (Mem.sets d m a bs) x n = Mem.gets d m x n := by
  induction n with
  | zero => intro x _; rfl
  | succ n ih =>
    intro x hx
    rw [Mem.gets, Mem.gets, Mem.get_sets_ne bs h (by omega), ih (by omega)]

end Sys2Proof.Machine
end

section
/-! SUPPORT. Words in DRAM: a write of memory changes DRAM and registers alone, and within one backed tile a word reads back as
written while the words beside it stay. -/
namespace Sys2Proof.Machine

/-! ### What a write of memory leaves alone -/

theorem State.wrTile_frame (s : State) (pa : Nat) (bs : List Byte) :
    ∃ r d, s.wrTile pa bs = { s with regs := r, dram := d } := by
  unfold State.wrTile
  split
  · exact ⟨_, _, rfl⟩
  · split
    · exact ⟨_, _, rfl⟩
    · exact ⟨_, _, rfl⟩

theorem State.wrFrom_frame (k : Nat) : ∀ (s : State) (pa : Nat) (bs : List Byte),
    ∃ r d, State.wrFrom k s pa bs = { s with regs := r, dram := d } := by
  induction k with
  | zero => intro s pa bs; exact ⟨_, _, rfl⟩
  | succ k ih =>
    intro s pa bs
    obtain ⟨r, d, htile⟩ := s.wrTile_frame pa (bs.take (min bs.length (512 - pa % 512)))
    rw [State.wrFrom, htile]
    split
    · exact ⟨_, _, rfl⟩
    · obtain ⟨r', d', hrest⟩ := ih { s with regs := r, dram := d } (pa + min bs.length (512 - pa % 512))
        (bs.drop (min bs.length (512 - pa % 512)))
      exact ⟨r', d', hrest⟩

theorem State.setWord_frame (s : State) (pa : Nat) (w : Word) : ∃ r d, s.setWord pa w = { s with regs := r, dram := d } := by
  rw [State.setWord, State.wr]
  exact State.wrFrom_frame _ s pa _

@[simp] theorem State.setWord_dis (s : State) (pa : Nat) (w : Word) : (s.setWord pa w).dis = s.dis := by
  obtain ⟨r, d, h⟩ := s.setWord_frame pa w
  rw [h]

@[simp] theorem State.setWord_cores (s : State) (pa : Nat) (w : Word) : (s.setWord pa w).cores = s.cores := by
  obtain ⟨r, d, h⟩ := s.setWord_frame pa w
  rw [h]

@[simp] theorem State.recState_dis (s : State) (rec st : Nat) : (s.recState rec st).dis = s.dis := State.setWord_dis ..

@[simp] theorem State.recState_cores (s : State) (rec st : Nat) : (s.recState rec st).cores = s.cores := State.setWord_cores ..

/-! ### Words of one backed tile -/

theorem State.word_dis (s : State) (d : Dispatcher) (pa : Nat) : ({ s with dis := d } : State).word pa = s.word pa := rfl

/-- The bytes of a tile that begins at `rec` share its base. -/
theorem State.tileBase_add (s : State) {rec o : Nat} (hrec : rec % 512 = 0) (ho : o < 512) :
    s.tileBase (rec + o) = s.tileBase rec := by
  have hband : (rec + o) / 2 ^ 34 = rec / 2 ^ 34 := by omega
  have htile : (rec + o) % 2 ^ 34 / 512 = rec % 2 ^ 34 / 512 := by omega
  have hquad : (rec + o) % 2 ^ 34 / 2 ^ 32 = rec % 2 ^ 34 / 2 ^ 32 := by omega
  have hquadTile : (rec + o) % 2 ^ 34 % 2 ^ 32 / 512 = rec % 2 ^ 34 % 2 ^ 32 / 512 := by omega
  have hchan : (rec + o) % 2 ^ 34 / 2 ^ 26 = rec % 2 ^ 34 / 2 ^ 26 := by omega
  have hchanTile : (rec + o) % 2 ^ 34 % 2 ^ 26 / 512 = rec % 2 ^ 34 % 2 ^ 26 / 512 := by omega
  simp only [State.tileBase, State.tilePlace, hband, htile, hquad, hquadTile, hchan, hchanTile]

section
variable {s : State} {rec b o : Nat} (hrec : rec % 512 = 0) (hb : s.tileBase rec = some b) (ho : o + 16 ≤ 512)
include hrec hb ho

theorem State.word_in_tile (m : Mem) :
    ({ s with dram := m } : State).word (rec + o) = BitVec.ofNat 128 (leNat (Mem.gets dflt m (b + o) 16)) := by
  have hbase : ({ s with dram := m } : State).tileBase (rec + o) = some b := (s.tileBase_add hrec (by omega)).trans hb
  have hoff : (rec + o) % 512 = o := by omega
  have hmin : min 16 (512 - o) = 16 := by omega
  simp [State.word, State.rd, State.rdFrom, State.rdTile, hbase, hoff, hmin]

theorem State.setWord_in_tile (w : Word) :
    s.setWord (rec + o) w = { s with dram := Mem.sets dflt s.dram (b + o) (leBytes 16 w.toNat) } := by
  have hbase : s.tileBase (rec + o) = some b := (s.tileBase_add hrec (by omega)).trans hb
  have hoff : (rec + o) % 512 = o := by omega
  have hmin : min 16 (512 - o) = 16 := by omega
  have htile (bs : List Byte) : s.wrTile (rec + o) bs = { s with dram := Mem.sets dflt s.dram (b + o) bs } := by
    unfold State.tileBase at hbase
    unfold State.wrTile
    split at hbase
    · cases hbase
    next ch u hplace =>
      split at hbase
      next hok =>
        simp only [Option.some.injEq] at hbase
        simp only [hok, if_true, hbase, hoff]
      · cases hbase
  have hlen : (leBytes 16 w.toNat).length = 16 := length_leBytes 16 _
  have htake : (leBytes 16 w.toNat).take 16 = leBytes 16 w.toNat := List.take_of_length_le (by omega)
  have hne : (leBytes 16 w.toNat).isEmpty = false := rfl
  simp [State.setWord, State.wr, State.wrFrom, hne, hlen, hoff, hmin, htake, htile]

variable (hm : Mem.wf dflt s.dram = true)
include hm

theorem State.word_setWord_self (w : Word) : (s.setWord (rec + o) w).word (rec + o) = w := by
  rw [State.setWord_in_tile hrec hb ho]
  have h := Mem.gets_sets hm (b + o) (leBytes 16 w.toNat)
  rw [length_leBytes] at h
  rw [State.word_in_tile hrec hb ho, h, ofNat_leNat_leBytes]

theorem State.word_setWord_apart (w : Word) {p : Nat} (hp : p + 16 ≤ 512) (hd : p + 16 ≤ o ∨ o + 16 ≤ p) :
    (s.setWord (rec + o) w).word (rec + p) = s.word (rec + p) := by
  rw [State.setWord_in_tile hrec hb ho]
  rw [State.word_in_tile hrec hb hp, Mem.gets_sets_apart hm _ 16 (by rw [length_leBytes]; omega)]
  exact (State.word_in_tile hrec hb hp s.dram).symm

end

end Sys2Proof.Machine
end

section
/-! SUPPORT. Registers and fields of the same state after a counter and other fields were written. -/
namespace Sys2Proof.Machine

theorem regsKept_put (s : State) {f : RegField} {n u i : Nat} (hf : RegAddr.valid ⟨f.reg, u, i⟩) :
    regsKept s (s.put f n u i) [f.reg] := by
  intro m x j hm hv
  refine s.reg_setReg_other _ hf hv fun h => hm ?_
  rw [(RegAddr.mk.inj h).1]
  exact List.mem_singleton_self _

theorem regsKept.trans {s t u : State} {l l' : List RegName} (h : regsKept s t l) (h' : regsKept t u l') :
    regsKept s u (l ++ l') := by
  intro n x i hn hv
  rw [List.mem_append, not_or] at hn
  exact (h' n x i hn.2 hv).trans (h n x i hn.1 hv)

/-- A counter reads as raised, held at the top of its field. -/
theorem State.get_count_self (s : State) (f : RegField) (k u i : Nat) (h : f.lo ≤ f.hi) (hw : f.hi < 64) :
    (s.count f k u i).get f u i = min (2 ^ (f.hi + 1 - f.lo) - 1) (s.get f u i + k) := by
  have hpos := Nat.two_pow_pos (f.hi + 1 - f.lo)
  rw [State.count, s.get_put_self f _ u i h hw, satAdd, Nat.mod_eq_of_lt (by omega)]

end Sys2Proof.Machine
end

section
/-! SUPPORT. Operations of cores at a node (01 R26): when one arrives, and what its answer changes. -/
namespace Sys2Proof.Machine

theorem mem_of_smap_get? {α : Type} {m : SMap α} {k : Nat} {a : α} (h : m.get? k = some a) : (k, a) ∈ m := by
  induction m with
  | nil => cases h
  | cons e m ih =>
    obtain ⟨j, c⟩ := e
    rw [SMap.get?] at h
    split at h
    next hj =>
      obtain rfl := hj
      obtain rfl := Option.some.inj h
      exact List.mem_cons_self
    · exact List.mem_cons_of_mem _ (ih h)

/-- A core that is not listed has sent nothing. -/
theorem State.core_mem_cores {s : State} {n : Nat} {op : NetOp} (h : op ∈ (s.core n).ops) : (n, s.core n) ∈ s.cores := by
  cases hget : s.cores.get? n with
  | none => simp [State.core, SMap.getD, hget, Core.cold] at h
  | some c =>
    have hcore : s.core n = c := by rw [State.core, SMap.getD, hget]; rfl
    rw [hcore]
    exact mem_of_smap_get? hget

theorem State.core_setCore_self (s : State) (n : Nat) (c : Core) : (s.setCore n c).core n = c := SMap.getD_put_self ..

theorem State.core_setCore_ne (s : State) {n m : Nat} (c : Core) (h : m ≠ n) : (s.setCore n c).core m = s.core m :=
  SMap.getD_put_ne _ _ _ h

theorem State.core_congr {s t : State} (h : t.cores = s.cores) (n : Nat) : t.core n = s.core n := by
  rw [State.core, State.core, h]

/-- An operation that reads no queue arrives once it is its core's oldest to its destination. -/
theorem State.mayArrive_iff_oldest (s : State) (n : Nat) {op : NetOp} (hq : op.readQueue = none) :
    s.mayArrive (.core n) op = true ↔ (s.core n).ops.find? (fun o => o.dest == op.dest) = some op := by
  simp [State.mayArrive, hq]

theorem State.mem_ops_of_mayArrive {s : State} {n : Nat} {op : NetOp} (hq : op.readQueue = none)
    (h : s.mayArrive (.core n) op = true) : op ∈ (s.core n).ops :=
  List.mem_of_find?_eq_some ((s.mayArrive_iff_oldest n hq).1 h)

theorem State.mayArrive_of_ops_eq {s : State} {n : Nat} {op : NetOp} (hq : op.readQueue = none) (h : (s.core n).ops = [op]) :
    s.mayArrive (.core n) op = true := by
  rw [s.mayArrive_iff_oldest n hq, h]
  simp

theorem State.answer_frame (s : State) (who : Agent) (op : NetOp) (st : Reg64) (w : Option Word) :
    s.answer who op st w = { s with cores := (s.answer who op st w).cores } := by
  unfold State.answer
  split
  · split
    · rfl
    · rfl
  · rfl

theorem onlyCores_trans {s t u : State} (h : t = { s with cores := t.cores }) (h' : u = { t with cores := u.cores }) :
    u = { s with cores := u.cores } := by
  rw [h', h]

@[simp] theorem State.answer_dis (s : State) (who : Agent) (op : NetOp) (st : Reg64) (w : Option Word) :
    (s.answer who op st w).dis = s.dis := by rw [s.answer_frame]

/-- The core whose operation is answered: the operation has left, and the reply is on its way. -/
theorem State.core_answer_self {s : State} {n : Nat} {op : NetOp} (h : op ∈ (s.core n).ops) (st : Reg64) (w : Option Word) :
    (s.answer (.core n) op st w).core n =
      { s.core n with ops := dropFirst (· == op) (s.core n).ops, replies := (s.core n).replies ++ [(st, w)] } := by
  have hc : (s.core n).ops.contains op = true := List.contains_iff_mem.2 h
  simp only [State.answer, hc, if_true, State.arrived, State.core_setCore_self]

/-- An operation answered in a state that has served it and has left the cores as they were. -/
theorem State.answer_effect {s u : State} {n : Nat} {op : NetOp} (hu : u.cores = s.cores) (h : op ∈ (s.core n).ops)
    (st : Reg64) (w : Option Word) :
    ((u.answer (.core n) op st w).core n).replies = (s.core n).replies ++ [(st, w)] ∧
      ((u.answer (.core n) op st w).core n).ops = dropFirst (· == op) (s.core n).ops ∧ (u.answer (.core n) op st w).dis = u.dis := by
  have hcore := State.core_congr hu n
  have hanswer := State.core_answer_self (s := u) (hcore ▸ h) st w
  rw [hanswer, hcore]
  exact ⟨rfl, rfl, State.answer_dis ..⟩

theorem State.core_answer_ne (s : State) {n m : Nat} (op : NetOp) (st : Reg64) (w : Option Word) (hm : m ≠ n) :
    (s.answer (.core n) op st w).core m = s.core m := by
  simp only [State.answer, State.arrived]
  split
  · rw [State.core_setCore_ne _ _ hm, State.core_setCore_ne _ _ hm]
  · rfl

end Sys2Proof.Machine
end

section
/-! SUPPORT. TREADY (10 R268): what an accepted and what a refused one leaves. -/
namespace Sys2Proof.Machine

theorem exec_taskReady (core : Option Nat) (rec : Nat) (s : State) :
    exec (.taskReady core rec) s = .next (s.readyArrives core rec) := rfl

theorem State.readyArrives_none (s : State) (rec : Nat) : s.readyArrives none rec = (s.tready rec s.mtime).2 := rfl

theorem State.readyArrives_oldest {s : State} {n rec : Nat} (h : s.mayArrive (.core n) (.tready rec) = true) :
    s.readyArrives (some n) rec =
      (s.tready rec s.mtime).2.answer (.core n) (.tready rec) (statusWord (s.tready rec s.mtime).1) none := if_pos h

/-- The list that a task's record names. -/
def State.listOf (s : State) (rec : Nat) : Nat := fld (s.word rec) 51 46

/-- A record's deadline in force, a relative one counted from now. -/
def State.deadlineOf (s : State) (rec : Nat) : Nat :=
  if bit (s.word rec) 33 then (s.mtime + fld (s.word rec) 127 64) % 2 ^ 64 else fld (s.word rec) 127 64

/-- The conditions on which a TREADY of a record is accepted. -/
def State.readyOk (s : State) (rec : Nat) : Prop :=
  s.flag F.DIS_LIST_CFG_en 0 (s.listOf rec) = true ∧ s.listHeld (s.listOf rec) < s.get F.DIS_LIST_CFG_cap 0 (s.listOf rec) ∧
    fld (s.word (rec + 32)) 127 124 ≠ 1 ∧ fld (s.word (rec + 32)) 127 124 ≠ 2 ∧ fld (s.word (rec + 32)) 127 124 ≠ 3

/-- The record of an accepted task: state 1 and its effective deadline written. -/
def State.readied (s : State) (rec : Nat) : State := (s.recState rec 1).putWord (rec + 48) 127 64 (s.deadlineOf rec)

/-- The dispatcher with an accepted task in its list. -/
def State.heldReady (s : State) (rec : Nat) : Dispatcher :=
  { s.dis with tasks := s.dis.tasks ++ [⟨rec, s.listOf rec, fld (s.word rec) 63 52, s.deadlineOf rec, s.dis.arrivals, .ready⟩]
               arrivals := s.dis.arrivals + 1 }

@[simp] theorem State.readied_dis (s : State) (rec : Nat) : (s.readied rec).dis = s.dis :=
  (State.setWord_dis ..).trans (State.recState_dis ..)

@[simp] theorem State.readied_cores (s : State) (rec : Nat) : (s.readied rec).cores = s.cores :=
  (State.setWord_cores ..).trans (State.recState_cores ..)

theorem State.listOf_lt (s : State) (rec : Nat) : s.listOf rec < 64 := fld_lt (s.word rec) 51 46

theorem State.deadlineOf_lt (s : State) (rec : Nat) : s.deadlineOf rec < 2 ^ 64 := by
  unfold State.deadlineOf
  split
  · exact Nat.mod_lt _ (Nat.two_pow_pos 64)
  · exact fld_lt (s.word rec) 127 64

theorem State.tready_of_readyOk {s : State} {rec : Nat} (h : s.readyOk rec) :
    s.tready rec s.mtime = (0x00, { s.readied rec with dis := s.heldReady rec }) := by
  have hdis := s.readied_dis rec
  unfold State.tready
  refine (if_pos ?_).trans ?_
  · simpa [State.readyOk, State.listOf, and_assoc] using h
  · rw [State.heldReady, ← hdis]
    rfl

theorem State.tready_of_not_readyOk {s : State} {rec : Nat} (h : ¬ s.readyOk rec) :
    s.tready rec s.mtime = (0x03, s.refuseReady (s.listOf rec)) := by
  unfold State.tready
  refine if_neg fun hc => h ?_
  simpa [State.readyOk, State.listOf, and_assoc] using hc

@[simp] theorem State.tready_cores (s : State) (rec : Nat) : (s.tready rec s.mtime).2.cores = s.cores := by
  by_cases h : s.readyOk rec
  · rw [State.tready_of_readyOk h]
    exact s.readied_cores rec
  · rw [State.tready_of_not_readyOk h]
    rfl

theorem State.tready_status (s : State) (rec : Nat) :
    ((s.tready rec s.mtime).1 = 0x00 ↔ s.readyOk rec) ∧ ((s.tready rec s.mtime).1 = 0x03 ↔ ¬ s.readyOk rec) := by
  by_cases h : s.readyOk rec
  · simp [State.tready_of_readyOk h, h]
  · simp [State.tready_of_not_readyOk h, h]

section
variable {s : State} {rec b : Nat} (hm : Mem.wf dflt s.dram = true) (hrec : rec % 512 = 0) (hb : s.tileBase rec = some b)

include hrec hb in
/-- A state written into a record in a backed tile changes DRAM alone. -/
theorem State.recState_in_tile (st : Nat) : ∃ m, s.recState rec st = { s with dram := m } ∧
    (Mem.wf dflt s.dram = true → Mem.wf dflt m = true) :=
  ⟨_, State.setWord_in_tile hrec hb (by decide) _, fun h => Mem.wf_sets _ h _⟩

include hrec hb in
theorem State.readied_frame : ∃ m, s.readied rec = { s with dram := m } := by
  obtain ⟨m, hu, -⟩ := State.recState_in_tile hrec hb 1
  rw [State.readied, hu]
  exact ⟨_, State.setWord_in_tile (s := { s with dram := m }) hrec hb (by decide) _⟩

include hm hrec hb

theorem State.readied_state : fld ((s.readied rec).word (rec + 32)) 127 124 = 1 := by
  obtain ⟨m, hu, hwf⟩ := State.recState_in_tile hrec hb 1
  have hstay : (s.readied rec).word (rec + 32) = (s.recState rec 1).word (rec + 32) := by
    rw [State.readied, hu]
    exact State.word_setWord_apart (s := { s with dram := m }) hrec hb (by decide) (hwf hm) _ (by decide) (by decide)
  rw [hstay, State.recState, State.putWord, State.word_setWord_self hrec hb (by decide) hm]
  exact fld_putFld_self _ 1 (by decide) (by decide)

theorem State.readied_deadline : fld ((s.readied rec).word (rec + 48)) 127 64 = s.deadlineOf rec := by
  obtain ⟨m, hu, hwf⟩ := State.recState_in_tile hrec hb 1
  rw [State.readied, hu, State.putWord, State.word_setWord_self (s := { s with dram := m }) hrec hb (by decide) (hwf hm),
    fld_putFld_self _ _ (by decide) (by decide)]
  exact Nat.mod_eq_of_lt (s.deadlineOf_lt rec)

theorem State.readied_word0 : (s.readied rec).word rec = s.word rec := by
  obtain ⟨m, hu, hwf⟩ := State.recState_in_tile hrec hb 1
  calc (s.readied rec).word rec
      = (s.recState rec 1).word rec := by
        rw [State.readied, hu]
        exact State.word_setWord_apart (s := { s with dram := m }) hrec hb (by decide) (hwf hm) _ (p := 0) (by decide) (by decide)
    _ = s.word rec := State.word_setWord_apart hrec hb (by decide) hm _ (p := 0) (by decide) (by decide)

end

/-- A refused TREADY: it is counted and shown, and only these registers change. -/
theorem State.refuseReady_effect (s : State) {l : Nat} (hl : l < 64) :
    (s.refuseReady l).get F.DIS_STATUS_refused_evt = 1 ∧
      (s.refuseReady l).get F.DIS_CNT_refused =
        min (2 ^ (F.DIS_CNT_refused.hi + 1 - F.DIS_CNT_refused.lo) - 1) (s.get F.DIS_CNT_refused + 1) ∧
      regsKept s (s.refuseReady l) [.DIS_CNT, .DIS_LIST_STAT, .DIS_STATUS] := by
  have hcnt : RegAddr.valid ⟨.DIS_CNT, 0, 0⟩ := by decide
  have hstatus : RegAddr.valid ⟨.DIS_STATUS, 0, 0⟩ := by decide
  have hlist : RegAddr.valid ⟨.DIS_LIST_STAT, 0, l⟩ := ⟨(by decide : 0 < RegName.DIS_LIST_STAT.info.blk.span.2), fun _ => rfl, hl⟩
  refine ⟨?_, ?_, ?_⟩
  · exact State.get_put_self _ F.DIS_STATUS_refused_evt 1 0 0 (by decide) (by decide)
  · rw [State.refuseReady, State.get_put_other _ _ _ _ _ _ _ _ hstatus hcnt (by decide), State.bump,
      State.get_put_other _ _ _ _ _ _ _ _ hlist hcnt (fun h => by cases h)]
    exact s.get_count_self F.DIS_CNT_refused 1 0 0 (by decide) (by decide)
  · have hcounted : regsKept s (s.count F.DIS_CNT_refused) [.DIS_CNT] := regsKept_put s hcnt
    exact (hcounted.trans (regsKept_put _ hlist)).trans (regsKept_put _ hstatus)

end Sys2Proof.Machine
end

section
/-! SUPPORT. TCANCEL (10 R269): by the task's place, and where it meets a TREADY. -/
namespace Sys2Proof.Machine

theorem exec_taskCancel_alone (core : Option Nat) (rec : Nat) (s : State) :
    exec (.taskCancel core rec false) s = .next (s.cancelArrives core rec) := rfl

theorem State.cancelArrives_none (s : State) (rec : Nat) : s.cancelArrives none rec = (s.tcancel rec).2 := rfl

theorem State.cancelArrives_oldest {s : State} {n rec : Nat} (h : s.mayArrive (.core n) (.tcancel rec) = true) :
    s.cancelArrives (some n) rec = (s.tcancel rec).2.answer (.core n) (.tcancel rec) (statusWord (s.tcancel rec).1) none := if_pos h

theorem State.dropTask_frame (s : State) (rec : Nat) :
    (s.dropTask rec).cores = s.cores ∧ (s.dropTask rec).dis.tasks = s.dis.tasks.filter (fun t => t.record != rec) := by
  unfold State.dropTask State.touchStation
  split
  · exact ⟨rfl, rfl⟩
  · exact ⟨rfl, rfl⟩
  · exact ⟨rfl, rfl⟩

theorem State.tcancel_of_not_held {s : State} {rec : Nat} (h : s.dis.tasks.find? (fun t => t.record == rec) = none) :
    s.tcancel rec = (0x06, s) := by
  rw [State.tcancel, h]

section
variable {s : State} {rec : Nat} {x : Task} (h : s.dis.tasks.find? (fun t => t.record == rec) = some x)
include h

theorem State.tcancel_of_ready (hp : x.place = .ready) : s.tcancel rec = (0x00, (s.dropTask rec).recState rec 7) := by
  simp only [State.tcancel, h, hp]

theorem State.tcancel_of_slot {c : Nat} (hp : x.place = .slot c) : s.tcancel rec = (0x05, (s.dropTask rec).recState rec 7) := by
  simp only [State.tcancel, h, hp]

theorem State.tcancel_of_running {c : Nat} (hp : x.place = .running c) : s.tcancel rec = (0x06, s) := by
  simp only [State.tcancel, h, hp]

end

@[simp] theorem State.tcancel_cores (s : State) (rec : Nat) : (s.tcancel rec).2.cores = s.cores := by
  have hdrop : ((s.dropTask rec).recState rec 7).cores = s.cores := (State.recState_cores ..).trans (s.dropTask_frame rec).1
  unfold State.tcancel
  split
  · rfl
  · split
    · exact hdrop
    · exact hdrop
    · rfl

/-- A TCANCEL that meets a TREADY, and finds the record not held. -/
theorem exec_taskCancel_meets {s : State} {core : Option Nat} {rec : Nat}
    (hheld : s.dis.tasks.find? (fun t => t.record == rec) = none)
    (hcore : ∀ n ∈ core, s.mayArrive (.core n) (.tcancel rec) = true) :
    exec (.taskCancel core rec true) s = .next (s.cancelMeets core rec) := by
  have hany : s.dis.tasks.any (fun t => t.record == rec) = false := by
    simpa [List.find?_eq_none] using hheld
  have hall : core.all (fun n => s.mayArrive (.core n) (.tcancel rec)) = true := by
    cases core with
    | none => rfl
    | some n => exact hcore n rfl
  change Host.Outcome.next _ = _
  rw [hany, hall]
  rfl

theorem State.mayArrive_recState (s : State) (rec st n r : Nat) :
    (s.recState rec st).mayArrive (.core n) (.tready r) = s.mayArrive (.core n) (.tready r) := by
  rw [Bool.eq_iff_iff, State.mayArrive_iff_oldest _ _ rfl, State.mayArrive_iff_oldest _ _ rfl,
    State.core_congr (s.recState_cores rec st)]

/-- No core's TREADY of the record: the cancel alone is answered. -/
theorem State.cancelMeets_of_no_ready {s : State} {rec : Nat} (h : ∀ e ∈ s.cores, e.2.ops.contains (.tready rec) = false) :
    s.cancelMeets none rec = s.recState rec 7 := by
  have hfind : s.cores.find? (fun e => s.mayArrive (.core e.1) (.tready rec)) = none := by
    rw [List.find?_eq_none]
    intro e _ harr
    have hmem := State.mem_ops_of_mayArrive rfl harr
    have hno := h _ (State.core_mem_cores hmem)
    rw [List.contains_iff_mem.2 hmem] at hno
    cases hno
  simp only [State.cancelMeets, State.recState_cores, State.mayArrive_recState, hfind]

/-- One core's TREADY of the record and another's TCANCEL: both are answered with 0x04. -/
theorem State.cancelMeets_of_ready {s : State} {rec k n : Nat} (hk : (s.core k).ops = [.tready rec])
    (h : ∀ e ∈ s.cores, e.1 ≠ k → e.2.ops.contains (.tready rec) = false) :
    s.cancelMeets (some n) rec =
      ((s.recState rec 7).answer (.core k) (.tready rec) (statusWord 0x04) none).answer (.core n) (.tcancel rec) (statusWord 0x04) none := by
  have hmem : NetOp.tready rec ∈ (s.core k).ops := by rw [hk]; exact List.mem_singleton_self _
  have hsome : (s.cores.find? (fun e => s.mayArrive (.core e.1) (.tready rec))).isSome = true :=
    List.find?_isSome.2 ⟨_, State.core_mem_cores hmem, State.mayArrive_of_ops_eq rfl hk⟩
  obtain ⟨⟨j, c⟩, hfind⟩ := Option.isSome_iff_exists.1 hsome
  have hjk : j = k := by
    refine Decidable.byContradiction fun hne => ?_
    have harr : s.mayArrive (.core j) (.tready rec) = true :=
      List.find?_some (p := fun e : Nat × Core => s.mayArrive (.core e.1) (.tready rec)) hfind
    have hj := State.mem_ops_of_mayArrive rfl harr
    have hno := h _ (State.core_mem_cores hj) hne
    rw [List.contains_iff_mem.2 hj] at hno
    cases hno
  subst hjk
  simp only [State.cancelMeets, State.recState_cores, State.mayArrive_recState, hfind]

end Sys2Proof.Machine
end

section
/-! The obligation of 10 R268 and R269. -/
namespace Sys2Proof.Machine

/-! ### TREADY -/

theorem completes_taskReady_of_readyOk {s : State} {rec : Nat} (hm : s.memOk) (hrec : rec % 512 = 0) (hb : s.tileBase rec ≠ none)
    (hok : s.readyOk rec) :
    Completes (.taskReady none rec) s (fun t => t.dis = s.heldReady rec ∧ fld (t.word (rec + 32)) 127 124 = 1 ∧
      fld (t.word (rec + 48)) 127 64 = s.deadlineOf rec ∧ t.word rec = s.word rec ∧ t.regs = s.regs ∧
      t = { s with dram := t.dram, dis := t.dis }) := by
  obtain ⟨b, hb⟩ := Option.ne_none_iff_exists'.1 hb
  obtain ⟨hdram, -⟩ := hm
  obtain ⟨m, hframe⟩ := State.readied_frame hrec hb
  refine ⟨{ s.readied rec with dis := s.heldReady rec }, ?_, rfl, ?_, ?_, ?_, ?_, ?_⟩
  · rw [exec_taskReady, State.readyArrives_none, State.tready_of_readyOk hok]
  · rw [State.word_dis, State.readied_state hdram hrec hb]
  · rw [State.word_dis, State.readied_deadline hdram hrec hb]
  · rw [State.word_dis, State.readied_word0 hdram hrec hb]
  · rw [hframe]
  · rw [hframe]

theorem completes_taskReady_of_not_readyOk {s : State} {rec : Nat} (hok : ¬ s.readyOk rec) :
    Completes (.taskReady none rec) s (fun t => t.dis = s.dis ∧ t.dram = s.dram ∧ t.get F.DIS_STATUS_refused_evt = 1 ∧
      t.get F.DIS_CNT_refused = min (2 ^ (F.DIS_CNT_refused.hi + 1 - F.DIS_CNT_refused.lo) - 1) (s.get F.DIS_CNT_refused + 1) ∧
      onlyRegs s t ∧ regsKept s t [.DIS_CNT, .DIS_LIST_STAT, .DIS_STATUS]) := by
  obtain ⟨hevent, hcount, hregs⟩ := s.refuseReady_effect (s.listOf_lt rec)
  refine ⟨s.refuseReady (s.listOf rec), ?_, rfl, rfl, hevent, hcount, rfl, hregs⟩
  rw [exec_taskReady, State.readyArrives_none, State.tready_of_not_readyOk hok]

theorem completes_taskReady_answered {s : State} {rec k : Nat}
    (hold : (s.core k).ops.find? (fun o => o.dest == 32) = some (.tready rec)) :
    Completes (.taskReady (some k) rec) s (fun t =>
      (t.core k).replies = (s.core k).replies ++ [(statusWord (s.tready rec s.mtime).1, none)] ∧
      (t.core k).ops = dropFirst (· == .tready rec) (s.core k).ops ∧ t.dis = (s.tready rec s.mtime).2.dis) := by
  have harr := (s.mayArrive_iff_oldest k (op := .tready rec) rfl).2 hold
  exact ⟨_, (exec_taskReady (some k) rec s).trans (congrArg _ (State.readyArrives_oldest harr)),
    State.answer_effect (s.tready_cores rec) (List.mem_of_find?_eq_some hold) _ none⟩

/-! ### TCANCEL -/

theorem completes_taskCancel_of_tcancel {s t : State} {rec st : Nat} (h : s.tcancel rec = (st, t)) :
    (s.tcancel rec).1 = st ∧ Completes (.taskCancel none rec false) s (fun u => u = t) := by
  refine ⟨by rw [h], _, exec_taskCancel_alone none rec s, ?_⟩
  rw [State.cancelArrives_none, h]

theorem completes_taskCancel_answered {s : State} {rec n : Nat}
    (hold : (s.core n).ops.find? (fun o => o.dest == 32) = some (.tcancel rec)) :
    Completes (.taskCancel (some n) rec false) s (fun t =>
      (t.core n).replies = (s.core n).replies ++ [(statusWord (s.tcancel rec).1, none)] ∧
      (t.core n).ops = dropFirst (· == .tcancel rec) (s.core n).ops ∧ t.dis = (s.tcancel rec).2.dis) := by
  have harr := (s.mayArrive_iff_oldest n (op := .tcancel rec) rfl).2 hold
  exact ⟨_, (exec_taskCancel_alone (some n) rec s).trans (congrArg _ (State.cancelArrives_oldest harr)),
    State.answer_effect (s.tcancel_cores rec) (List.mem_of_find?_eq_some hold) _ none⟩

theorem completes_taskCancel_of_no_ready {s : State} {rec : Nat} (hheld : s.dis.tasks.find? (fun t => t.record == rec) = none)
    (h : ∀ e ∈ s.cores, e.2.ops.contains (.tready rec) = false) :
    Completes (.taskCancel none rec true) s (fun t => t = s.recState rec 7 ∧ t.dis = s.dis) := by
  refine ⟨_, exec_taskCancel_meets hheld (fun _ hn => by cases hn), ?_⟩
  rw [State.cancelMeets_of_no_ready h]
  exact ⟨rfl, s.recState_dis rec 7⟩

theorem completes_taskCancel_meets {s : State} {rec k n : Nat} (hheld : s.dis.tasks.find? (fun t => t.record == rec) = none)
    (hne : k ≠ n) (hk : (s.core k).ops = [.tready rec]) (hn : (s.core n).ops = [.tcancel rec])
    (h : ∀ e ∈ s.cores, e.1 ≠ k → e.2.ops.contains (.tready rec) = false) :
    Completes (.taskCancel (some n) rec true) s (fun t =>
      (t.core k).replies = (s.core k).replies ++ [(statusWord 0x04, none)] ∧ (t.core k).ops = [] ∧
      (t.core n).replies = (s.core n).replies ++ [(statusWord 0x04, none)] ∧ (t.core n).ops = [] ∧
      t = { s.recState rec 7 with cores := t.cores }) := by
  have harr : s.mayArrive (.core n) (.tcancel rec) = true := State.mayArrive_of_ops_eq rfl hn
  refine ⟨_, exec_taskCancel_meets hheld (fun m hm => by cases hm; exact harr), ?_⟩
  rw [State.cancelMeets_of_ready hk h]
  let u := s.recState rec 7
  let v := u.answer (.core k) (.tready rec) (statusWord 0x04) none
  have hu (m : Nat) : u.core m = s.core m := State.core_congr (s.recState_cores rec 7) m
  have hv : v.core n = s.core n := (u.core_answer_ne _ _ _ hne.symm).trans (hu n)
  have hready : NetOp.tready rec ∈ (u.core k).ops := by rw [hu, hk]; exact List.mem_singleton_self _
  have hcancel : NetOp.tcancel rec ∈ (v.core n).ops := by rw [hv, hn]; exact List.mem_singleton_self _
  have hfinalK := (v.core_answer_ne (.tcancel rec) (statusWord 0x04) none hne).trans (State.core_answer_self hready _ _)
  have hfinalN := State.core_answer_self hcancel (statusWord 0x04) none
  refine ⟨?_, ?_, ?_, ?_, ?_⟩
  · rw [hfinalK, hu]
  · rw [hfinalK, hu, hk]
    simp [dropFirst]
  · rw [hfinalN, hv]
  · rw [hfinalN, hv, hn]
    simp [dropFirst]
  · exact onlyCores_trans (u.answer_frame ..) (v.answer_frame ..)

/-- Settles O21: TREADY by `State.tready_of_readyOk` and its refusal, TCANCEL by the task's place, and where both meet by
`State.cancelMeets_of_ready`; `State.core_answer_self` gives each core's answer. -/
theorem readyTasksAreHeldOrCancelled : Obligations.ReadyTasksAreHeldOrCancelled := by
  unfold Obligations.ReadyTasksAreHeldOrCancelled
  refine ⟨fun s rec hm hrec hb => ⟨?_, ?_, fun k hold => ?_⟩, fun s rec x hx => ⟨fun hp => ?_, fun c hp => ?_, fun c hp => ?_⟩,
    fun s rec hx => ?_, fun s rec n => completes_taskCancel_answered, fun s rec => (s.dropTask_frame rec).2⟩
  · exact completes_taskReady_of_readyOk hm hrec hb
  · exact completes_taskReady_of_not_readyOk
  · obtain ⟨t, hexec, hreplies, hops, hdis⟩ := completes_taskReady_answered hold
    exact ⟨t, hexec, hreplies, hops, hdis, s.tready_status rec⟩
  · exact completes_taskCancel_of_tcancel (State.tcancel_of_ready hx hp)
  · exact completes_taskCancel_of_tcancel (State.tcancel_of_slot hx hp)
  · exact completes_taskCancel_of_tcancel (State.tcancel_of_running hx hp)
  · obtain ⟨hstatus, hcompletes⟩ := completes_taskCancel_of_tcancel (State.tcancel_of_not_held hx)
    exact ⟨hstatus, hcompletes, completes_taskCancel_of_no_ready hx, fun k n => completes_taskCancel_meets hx⟩

end Sys2Proof.Machine
end

section
/-! SUPPORT. Register writes: the frame of a field set, fields that another write leaves, and a write by name. -/
namespace Sys2Proof.Machine

/-! ### The frame of a register write -/

theorem regsKept_refl (s : State) (l : List RegName) : regsKept s s l := fun _ _ _ _ _ => rfl

theorem regsKept.congr {s t u : State} {l : List RegName} (h : regsKept s t l) (hu : u.regs = t.regs) : regsKept s u l :=
  fun n x i hn hv => (State.reg_congr hu n x i).trans (h n x i hn hv)

/-- A further field set, of a register that is listed already. -/
theorem regsKept.put {s t : State} {l : List RegName} (h : regsKept s t l) (f : RegField) (n : Nat) {u i : Nat}
    (hf : RegAddr.valid ⟨f.reg, u, i⟩) (hl : f.reg ∈ l) : regsKept s (t.put f n u i) l := by
  intro m x j hm hv
  have hmf : m ∉ [f.reg] := fun hmem => hm (List.mem_singleton.1 hmem ▸ hl)
  exact (regsKept_put t hf m x j hmf hv).trans (h m x j hm hv)

theorem regsKept_foldl {α : Type} {l : List RegName} {g : State → α → State} (xs : List α)
    (hg : ∀ x ∈ xs, ∀ t, regsKept t (g t x) l) : ∀ s : State, regsKept s (xs.foldl g s) l := by
  induction xs with
  | nil => exact fun s => regsKept_refl s l
  | cons x xs ih =>
    intro s n u i hn hv
    rw [List.forall_mem_cons] at hg
    exact (ih hg.2 (g s x) n u i hn hv).trans (hg.1 s n u i hn hv)

theorem onlyRegs_refl (s : State) : onlyRegs s s := rfl

theorem onlyRegs.setReg {s t : State} (h : onlyRegs s t) (n : RegName) (v : Reg64) (u i : Nat) : onlyRegs s (t.setReg n v u i) :=
  congrArg (State.setReg · n v u i) h

theorem onlyRegs.put {s t : State} (h : onlyRegs s t) (f : RegField) (n u i : Nat) : onlyRegs s (t.put f n u i) :=
  h.setReg f.reg _ u i

theorem onlyRegs.answerBus {s t : State} (h : onlyRegs s t) (d : Reg64) (n : Nat) : onlyRegs s (t.answerBus d n) :=
  congrArg (State.answerBus · d n) h

/-- Nothing but registers, the answer of the register bus, and `State.sys` differs. -/
def onlyRegsSys (s t : State) : Prop := t = { s with regs := t.regs, bus := t.bus, sys := t.sys }

theorem onlyRegs.setSys {s t : State} (h : onlyRegs s t) (y : System) : onlyRegsSys s { t with sys := y } :=
  congrArg (fun x : State => ({ x with sys := y } : State)) h

theorem onlyRegsSys.setReg {s t : State} (h : onlyRegsSys s t) (n : RegName) (v : Reg64) (u i : Nat) :
    onlyRegsSys s (t.setReg n v u i) := congrArg (State.setReg · n v u i) h

theorem onlyRegsSys.put {s t : State} (h : onlyRegsSys s t) (f : RegField) (n u i : Nat) : onlyRegsSys s (t.put f n u i) :=
  h.setReg f.reg _ u i

theorem onlyRegsSys.answerBus {s t : State} (h : onlyRegsSys s t) (d : Reg64) (n : Nat) : onlyRegsSys s (t.answerBus d n) :=
  congrArg (State.answerBus · d n) h

theorem State.get_of_regsKept {s t : State} {l : List RegName} (h : regsKept s t l) {f : RegField} {u i : Nat} (hf : f.reg ∉ l)
    (hv : RegAddr.valid ⟨f.reg, u, i⟩) : t.get f u i = s.get f u i := by
  rw [State.get, State.get, h f.reg u i hf hv]

theorem State.flag_of_regsKept {s t : State} {l : List RegName} (h : regsKept s t l) {f : RegField} {u i : Nat} (hf : f.reg ∉ l)
    (hv : RegAddr.valid ⟨f.reg, u, i⟩) : t.flag f u i = s.flag f u i := by
  rw [State.flag, State.flag, State.get_of_regsKept h hf hv]

/-! ### What depends on one part of the state -/

theorem State.get_congr {s t : State} (h : t.regs = s.regs) (f : RegField) (u i : Nat) : t.get f u i = s.get f u i := by
  rw [State.get, State.get, State.reg_congr h]

theorem State.flag_congr {s t : State} (h : t.regs = s.regs) (f : RegField) (u i : Nat) : t.flag f u i = s.flag f u i := by
  rw [State.flag, State.flag, State.get_congr h]

theorem State.ownedBy_congr {s t : State} (h : t.regs = s.regs) (m : Master) : t.ownedBy m = s.ownedBy m := by
  rw [State.ownedBy, State.ownedBy, State.flag_congr h, State.get_congr h]

@[simp] theorem State.get_answerBus (s : State) (d : Reg64) (k : Nat) (f : RegField) (u i : Nat) :
    (s.answerBus d k).get f u i = s.get f u i := State.get_congr (s.answerBus_regs d k) f u i

@[simp] theorem State.flag_answerBus (s : State) (d : Reg64) (k : Nat) (f : RegField) (u i : Nat) :
    (s.answerBus d k).flag f u i = s.flag f u i := State.flag_congr (s.answerBus_regs d k) f u i

@[simp] theorem State.ownedBy_answerBus (s : State) (d : Reg64) (k : Nat) (m : Master) :
    (s.answerBus d k).ownedBy m = s.ownedBy m := State.ownedBy_congr (s.answerBus_regs d k) m

theorem regsKept.answerBus {s t : State} {l : List RegName} (h : regsKept s t l) (d : Reg64) (k : Nat) :
    regsKept s (t.answerBus d k) l := h.congr (t.answerBus_regs d k)

theorem State.upNs_congr {s t : State} (h : t.mtb = s.mtb) : t.upNs = s.upNs := by
  rw [State.upNs, State.upNs, h]

/-! ### Fields of one register -/

/-- Two fields of one register that have no bit in common. -/
abbrev RegField.Beside (f g : RegField) : Prop :=
  g.reg = f.reg ∧ f.lo ≤ f.hi ∧ f.hi < 64 ∧ g.hi < 64 ∧ (g.hi < f.lo ∨ f.hi < g.lo)

theorem State.get_put_beside (s : State) {f g : RegField} (h : f.Beside g) (n u i : Nat) :
    (s.put f n u i).get g u i = s.get g u i := by
  obtain ⟨hreg, hf, hfw, hgw, hapart⟩ := h
  exact s.get_put_field f g n u i hreg hf hfw hgw hapart

theorem State.flag_put_beside (s : State) {f g : RegField} (h : f.Beside g) (n u i : Nat) :
    (s.put f n u i).flag g u i = s.flag g u i := by
  rw [State.flag, State.flag, s.get_put_beside h]

theorem State.flag_put_one (s : State) (f : RegField) (u i : Nat) (h : f.lo ≤ f.hi) (hw : f.hi < 64) :
    (s.put f 1 u i).flag f u i = true := by
  have hlt : 1 < 2 ^ (f.hi + 1 - f.lo) := Nat.one_lt_two_pow (by omega)
  rw [State.flag, s.get_put_self f 1 u i h hw, Nat.mod_eq_of_lt hlt]
  rfl

theorem State.flag_put_zero (s : State) (f : RegField) (u i : Nat) (h : f.lo ≤ f.hi) (hw : f.hi < 64) :
    (s.put f 0 u i).flag f u i = false := by
  rw [State.flag, s.get_put_self f 0 u i h hw, Nat.zero_mod]
  rfl

theorem bit_or {w : Nat} (v x : BitVec w) (n : Nat) : bit (v ||| x) n = (bit v n || bit x n) := by
  rw [bit, bit, bit, BitVec.toNat_or, Nat.testBit_or]

theorem bit_and {w : Nat} (v x : BitVec w) (n : Nat) : bit (v &&& x) n = (bit v n && bit x n) := by
  rw [bit, bit, bit, BitVec.toNat_and, Nat.testBit_and]

/-! ### A write as it is judged -/

/-- A write by name that reaches the device: the effect that its judgement gives, and the answer. -/
theorem State.writeTo_of_judged {s t : State} {m : Master} {n : RegName} {v : Reg64} {u i : Nat} {ok : Bool}
    (hr : s.reaches m = true) (hv : RegAddr.valid ⟨n, u, i⟩) (h : s.judgedWrite m ⟨n, u, i⟩ v [] = (ok, t)) :
    s.writeTo m n v u i = t.answerBus 0 (bnat (!ok)) := by
  simp [State.writeTo, State.regWrite, State.regWriteWith, hr, locate_addr hv, h]

end Sys2Proof.Machine
end

section
/-! SUPPORT. The owner, the lease and the handover (17 R384 to R387): what each operation leaves in DEV_OWNER and DEV_HANDOVER. -/
namespace Sys2Proof.Machine

theorem valid_devOwner : RegAddr.valid ⟨.DEV_OWNER, 0, 0⟩ := by decide

theorem valid_devLease : RegAddr.valid ⟨.DEV_LEASE, 0, 0⟩ := by decide

theorem valid_devHandover : RegAddr.valid ⟨.DEV_HANDOVER, 0, 0⟩ := by decide

/-! ### Who owns the device -/

theorem State.ownedBy_iff (s : State) (m : Master) :
    s.ownedBy m = true ↔ candidate m = true ∧ s.flag F.DEV_OWNER_owned = true ∧ s.get F.DEV_OWNER_master = Master.code m := by
  simp only [State.ownedBy, Bool.and_eq_true, beq_iff_eq, and_assoc]

theorem State.candidate_of_successor {s : State} {m : Master} (h : s.successor m = true) : candidate m = true := by
  simp only [State.successor, Bool.and_eq_true, and_assoc] at h
  exact h.1

theorem code_lt_of_candidate {m : Master} (h : candidate m = true) : Master.code m < 4 := by
  cases m with
  | ctl _ => cases h
  | other => cases h
  | _ => decide

theorem State.ownedBy_of_regsKept {s t : State} {l : List RegName} (h : regsKept s t l) (hl : RegName.DEV_OWNER ∉ l) (m : Master) :
    t.ownedBy m = s.ownedBy m := by
  have howned : t.flag F.DEV_OWNER_owned = s.flag F.DEV_OWNER_owned := State.flag_of_regsKept h hl valid_devOwner
  have hmaster : t.get F.DEV_OWNER_master = s.get F.DEV_OWNER_master := State.get_of_regsKept h hl valid_devOwner
  rw [State.ownedBy, State.ownedBy, howned, hmaster]

/-! ### The period -/

theorem periodOf_claim (v : Reg64) : periodOf (v ||| 1) = periodOf v := by
  have hfld : fld (v ||| 1) 47 32 = fld v 47 32 := by
    have hone : (1 : Reg64).toNat >>> 32 = 0 := by decide
    rw [fld, fld, BitVec.toNat_or, Nat.shiftRight_or_distrib, hone, Nat.or_zero]
  rw [periodOf, periodOf, hfld]

theorem bit_claim (v : Reg64) : bit (v ||| 1) 0 = true := by
  rw [bit_or, show bit (1 : Reg64) 0 = true from by decide, Bool.or_true]

/-- The value that OWNER_RELEASE writes has claim clear and release set. -/
theorem bit_release (v : Reg64) :
    bit ((v ||| 2) &&& 0xFFFFFFFFFFFFFFFE) 0 = false ∧ bit ((v ||| 2) &&& 0xFFFFFFFFFFFFFFFE) 1 = true := by
  have htwo : bit (2 : Reg64) 1 = true := by decide
  have hmask : bit (0xFFFFFFFFFFFFFFFE : Reg64) 0 = false ∧ bit (0xFFFFFFFFFFFFFFFE : Reg64) 1 = true := by decide
  rw [bit_and, bit_and, bit_or v 2 1, htwo, hmask.1, hmask.2, Bool.and_false, Bool.or_true]
  exact ⟨rfl, rfl⟩

theorem periodOf_lt (v : Reg64) : periodOf v < 2 ^ 16 := by
  rw [periodOf, clampNat]
  omega

/-- DEV_OWNER with the period of a write. -/
def State.takePeriod (s : State) (v : Reg64) : State := s.put F.DEV_OWNER_period_ms (periodOf v)

theorem State.takePeriod_regsKept (s : State) (v : Reg64) {l : List RegName} (hl : RegName.DEV_OWNER ∈ l) :
    regsKept s (s.takePeriod v) l := (regsKept_refl s l).put F.DEV_OWNER_period_ms _ valid_devOwner hl

theorem State.takePeriod_onlyRegs (s : State) (v : Reg64) : onlyRegs s (s.takePeriod v) :=
  (onlyRegs_refl s).put F.DEV_OWNER_period_ms _ 0 0

theorem State.takePeriod_period (s : State) (v : Reg64) : (s.takePeriod v).get F.DEV_OWNER_period_ms = periodOf v :=
  (s.get_put_self F.DEV_OWNER_period_ms _ 0 0 (by decide) (by decide)).trans (Nat.mod_eq_of_lt (periodOf_lt v))

theorem State.takePeriod_ownedBy (s : State) (v : Reg64) (m : Master) : (s.takePeriod v).ownedBy m = s.ownedBy m := by
  have howned : F.DEV_OWNER_period_ms.Beside F.DEV_OWNER_owned := by decide
  have hmaster : F.DEV_OWNER_period_ms.Beside F.DEV_OWNER_master := by decide
  rw [State.ownedBy, State.ownedBy, State.takePeriod, s.flag_put_beside howned, s.get_put_beside hmaster]

/-! ### A new owner, and none -/

/-- The fields of DEV_OWNER that name a new owner. -/
def State.nameOwner (s : State) (m : Master) : State := (s.put F.DEV_OWNER_owned 1).put F.DEV_OWNER_master (Master.code m)

theorem State.nameOwner_period (s : State) (m : Master) :
    (s.nameOwner m).get F.DEV_OWNER_period_ms = s.get F.DEV_OWNER_period_ms := by
  have howned : F.DEV_OWNER_owned.Beside F.DEV_OWNER_period_ms := by decide
  have hmaster : F.DEV_OWNER_master.Beside F.DEV_OWNER_period_ms := by decide
  rw [State.nameOwner, State.get_put_beside _ hmaster, State.get_put_beside _ howned]

theorem State.nameOwner_regsKept {s t : State} {l : List RegName} (h : regsKept s t l) (hl : RegName.DEV_OWNER ∈ l) (m : Master) :
    regsKept s (t.nameOwner m) l := (h.put F.DEV_OWNER_owned 1 valid_devOwner hl).put F.DEV_OWNER_master _ valid_devOwner hl

theorem State.nameOwner_ownedBy (s : State) {m : Master} (hc : candidate m = true) : (s.nameOwner m).ownedBy m = true := by
  have hbeside : F.DEV_OWNER_master.Beside F.DEV_OWNER_owned := by decide
  have hcode : Master.code m < 2 ^ 8 := Nat.lt_trans (code_lt_of_candidate hc) (by decide)
  refine (State.ownedBy_iff _ m).2 ⟨hc, ?_, ?_⟩
  · rw [State.nameOwner, State.flag_put_beside _ hbeside]
    exact s.flag_put_one F.DEV_OWNER_owned 0 0 (by decide) (by decide)
  · rw [State.nameOwner, State.get_put_self _ F.DEV_OWNER_master _ _ _ (by decide) (by decide)]
    exact Nat.mod_eq_of_lt hcode

/-- `State.sys` with a lease that begins now. -/
def State.leased (s : State) (p : Nat) : System := { s.sys with period := p, leaseEnd := s.upNs + p * 10 ^ 6 }

theorem State.leased_leaseEnd (s : State) (p : Nat) : (s.leased p).leaseEnd = s.upNs + p * 10 ^ 6 := rfl

theorem State.leased_congr {s t : State} (hmtb : t.mtb = s.mtb) (hsys : t.sys = s.sys) (p : Nat) : t.leased p = s.leased p := by
  rw [State.leased, State.leased, State.upNs_congr hmtb, hsys]

theorem State.startLease_eq (s : State) : s.startLease = { s with sys := s.leased (s.get F.DEV_OWNER_period_ms) } := rfl

theorem State.startLease_regs (s : State) : s.startLease.regs = s.regs := by rw [State.startLease_eq]

theorem State.becomeOwner_eq (s : State) (m : Master) : s.becomeOwner m = (s.nameOwner m).startLease := rfl

theorem State.becomeOwner_regs (s : State) (m : Master) : (s.becomeOwner m).regs = (s.nameOwner m).regs :=
  State.startLease_regs _

theorem State.becomeOwner_ownedBy (s : State) {m : Master} (hc : candidate m = true) : (s.becomeOwner m).ownedBy m = true :=
  (State.ownedBy_congr (s.becomeOwner_regs m) m).trans (s.nameOwner_ownedBy hc)

theorem State.becomeOwner_period (s : State) (m : Master) :
    (s.becomeOwner m).get F.DEV_OWNER_period_ms = s.get F.DEV_OWNER_period_ms :=
  (State.get_congr (s.becomeOwner_regs m) _ _ _).trans (s.nameOwner_period m)

theorem State.becomeOwner_regsKept {s t : State} {l : List RegName} (h : regsKept s t l) (hl : RegName.DEV_OWNER ∈ l) (m : Master) :
    regsKept s (t.becomeOwner m) l := (State.nameOwner_regsKept h hl m).congr (t.becomeOwner_regs m)

/-- A new owner's lease runs from now, for the period that DEV_OWNER shows. -/
theorem State.becomeOwner_frame {s t : State} (h : onlyRegs s t) (m : Master) :
    onlyRegsSys s (t.becomeOwner m) ∧ (t.becomeOwner m).sys = s.leased (t.get F.DEV_OWNER_period_ms) := by
  have hnamed : onlyRegs s (t.nameOwner m) := (h.put F.DEV_OWNER_owned 1 0 0).put F.DEV_OWNER_master (Master.code m) 0 0
  have hlease (p : Nat) : (t.nameOwner m).leased p = s.leased p :=
    State.leased_congr (congrArg State.mtb hnamed) (congrArg State.sys hnamed) p
  rw [State.becomeOwner_eq, State.startLease_eq, t.nameOwner_period, hlease]
  exact ⟨hnamed.setSys _, rfl⟩

theorem State.clearHandover_regsKept {s t : State} {l : List RegName} (h : regsKept s t l) (hl : RegName.DEV_HANDOVER ∈ l) :
    regsKept s t.clearHandover l := h.put F.DEV_HANDOVER_en 0 valid_devHandover hl

theorem State.clearHandover_en (s : State) : s.clearHandover.flag F.DEV_HANDOVER_en = false :=
  s.flag_put_zero F.DEV_HANDOVER_en 0 0 (by decide) (by decide)

theorem State.clearHandover_regsKept_handover (s : State) : regsKept s s.clearHandover [.DEV_HANDOVER] :=
  State.clearHandover_regsKept (regsKept_refl s _) (by decide)

theorem State.disown_regsKept {s t : State} (h : regsKept s t [.DEV_OWNER, .DEV_HANDOVER]) :
    regsKept s t.disown [.DEV_OWNER, .DEV_HANDOVER] :=
  State.clearHandover_regsKept (h.put F.DEV_OWNER_owned 0 valid_devOwner (by decide)) (by decide)

theorem State.disown_onlyRegs {s t : State} (h : onlyRegs s t) : onlyRegs s t.disown :=
  (h.put F.DEV_OWNER_owned 0 0 0).put F.DEV_HANDOVER_en 0 0 0

theorem State.disown_owned (s : State) : s.disown.flag F.DEV_OWNER_owned = false := by
  have hkept : s.disown.flag F.DEV_OWNER_owned = (s.put F.DEV_OWNER_owned 0).flag F.DEV_OWNER_owned :=
    State.flag_of_regsKept (State.clearHandover_regsKept_handover _) (by decide) valid_devOwner
  exact hkept.trans (s.flag_put_zero F.DEV_OWNER_owned 0 0 (by decide) (by decide))

theorem State.disown_en (s : State) : s.disown.flag F.DEV_HANDOVER_en = false := State.clearHandover_en _

/-! ### The write of DEV_OWNER -/

theorem State.wrOwner_claim {s : State} {m : Master} {v : Reg64} (hc : candidate m = true)
    (hunowned : s.flag F.DEV_OWNER_owned = false) (hv : bit v 0 = true) :
    s.wrOwner m v = (true, (s.takePeriod v).becomeOwner m) := by
  simp [State.wrOwner, hc, hunowned, hv, State.takePeriod]

theorem State.wrOwner_claim_dropped {s : State} (m : Master) {v : Reg64} (howned : s.flag F.DEV_OWNER_owned = true)
    (hv : bit v 0 = true) : s.wrOwner m v = (false, s.dropWrite m) := by
  simp [State.wrOwner, howned, hv]

theorem State.wrOwner_of_owner {s : State} {m : Master} {v : Reg64} (ho : s.ownedBy m = true) (hv : bit v 0 = false) :
    s.wrOwner m v = (true, if bit v 1 then (s.takePeriod v).disown else s.takePeriod v) := by
  obtain ⟨hc, howned, -⟩ := (s.ownedBy_iff m).1 ho
  simp [State.wrOwner, hc, howned, ho, hv, State.takePeriod]

/-! ### The write of DEV_LEASE -/

theorem State.wrLease_of_owner {s : State} {m : Master} {v : Reg64} (ho : s.ownedBy m = true) (hv : bit v 63 = true) :
    s.wrLease m v = (true, s.startLease) := by
  simp [State.wrLease, ho, hv]

theorem State.wrLease_of_successor {s : State} {m : Master} {v : Reg64} (hs : s.successor m = true) (ho : s.ownedBy m = false)
    (hv : bit v 63 = true) : s.wrLease m v = (true, (s.becomeOwner m).clearHandover) := by
  simp [State.wrLease, ho, hs, hv]

/-! ### The write of DEV_HANDOVER -/

/-- DEV_HANDOVER with `en`, a successor, and refused clear. -/
def State.nameSuccessor (s : State) (en n : Nat) : State :=
  ((s.put F.DEV_HANDOVER_en en).put F.DEV_HANDOVER_successor n).put F.DEV_HANDOVER_refused 0

theorem State.nameSuccessor_regsKept (s : State) (en n : Nat) : regsKept s (s.nameSuccessor en n) [.DEV_HANDOVER] :=
  (((regsKept_refl s _).put F.DEV_HANDOVER_en en valid_devHandover (by decide)).put F.DEV_HANDOVER_successor n valid_devHandover
    (by decide)).put F.DEV_HANDOVER_refused 0 valid_devHandover (by decide)

theorem State.nameSuccessor_onlyRegs (s : State) (en n : Nat) : onlyRegs s (s.nameSuccessor en n) :=
  (((onlyRegs_refl s).put F.DEV_HANDOVER_en en 0 0).put F.DEV_HANDOVER_successor n 0 0).put F.DEV_HANDOVER_refused 0 0 0

theorem State.nameSuccessor_en (s : State) (en n : Nat) :
    (s.nameSuccessor en n).flag F.DEV_HANDOVER_en = (s.put F.DEV_HANDOVER_en en).flag F.DEV_HANDOVER_en := by
  have hrefused : F.DEV_HANDOVER_refused.Beside F.DEV_HANDOVER_en := by decide
  have hsuccessor : F.DEV_HANDOVER_successor.Beside F.DEV_HANDOVER_en := by decide
  rw [State.nameSuccessor, State.flag_put_beside _ hrefused, State.flag_put_beside _ hsuccessor]

theorem State.nameSuccessor_successor (s : State) (en n : Nat) :
    (s.nameSuccessor en n).get F.DEV_HANDOVER_successor = n % 2 ^ 8 := by
  have hrefused : F.DEV_HANDOVER_refused.Beside F.DEV_HANDOVER_successor := by decide
  rw [State.nameSuccessor, State.get_put_beside _ hrefused]
  exact State.get_put_self _ F.DEV_HANDOVER_successor n 0 0 (by decide) (by decide)

theorem State.nameSuccessor_refused (s : State) (en n : Nat) : (s.nameSuccessor en n).flag F.DEV_HANDOVER_refused = false :=
  State.flag_put_zero _ F.DEV_HANDOVER_refused 0 0 (by decide) (by decide)

theorem State.wrHandover_of_not_owner {s : State} {m : Master} (v : Reg64) (ho : s.ownedBy m = false) :
    s.wrHandover m v = (false, s.dropWrite m) := if_pos ho

section
variable {s : State} {m : Master} {v : Reg64} (ho : s.ownedBy m = true)
include ho

theorem State.wrHandover_cancel (hv : bit v 63 = false) : s.wrHandover m v = (true, s.nameSuccessor 0 (fld v 7 0)) := by
  simp [State.wrHandover, ho, hv, State.nameSuccessor]

theorem State.wrHandover_refuse (hv : bit v 63 = true) (hn : 3 < fld v 7 0 ∨ fld v 7 0 = Master.code m) :
    s.wrHandover m v = (true, s.put F.DEV_HANDOVER_refused 1) := by
  obtain ⟨-, -, hmaster⟩ := (s.ownedBy_iff m).1 ho
  simp [State.wrHandover, ho, hv, hmaster, hn]

theorem State.wrHandover_name (hv : bit v 63 = true) (hle : fld v 7 0 ≤ 3) (hne : fld v 7 0 ≠ Master.code m) :
    s.wrHandover m v = (true, s.nameSuccessor 1 (fld v 7 0)) := by
  obtain ⟨-, -, hmaster⟩ := (s.ownedBy_iff m).1 ho
  simp [State.wrHandover, ho, hv, hmaster, hne, Nat.not_lt.2 hle, State.nameSuccessor]

end

/-- A refused handover shows it and keeps its other fields (log 25). -/
theorem State.refuseHandover_effect (s : State) :
    (s.put F.DEV_HANDOVER_refused 1).flag F.DEV_HANDOVER_refused = true ∧
      (s.put F.DEV_HANDOVER_refused 1).flag F.DEV_HANDOVER_en = s.flag F.DEV_HANDOVER_en ∧
      (s.put F.DEV_HANDOVER_refused 1).get F.DEV_HANDOVER_successor = s.get F.DEV_HANDOVER_successor := by
  have hen : F.DEV_HANDOVER_refused.Beside F.DEV_HANDOVER_en := by decide
  have hsuccessor : F.DEV_HANDOVER_refused.Beside F.DEV_HANDOVER_successor := by decide
  exact ⟨s.flag_put_one F.DEV_HANDOVER_refused 0 0 (by decide) (by decide), s.flag_put_beside hen .., s.get_put_beside hsuccessor ..⟩

/-! ### The end of the lease -/

theorem State.leaseLapse_due {s : State} (howned : s.flag F.DEV_OWNER_owned = true) (hdue : s.sys.leaseEnd ≤ s.upNs) :
    s.leaseLapse = s.disown.logEv 0x0002 0x000 0 4 [] := if_pos ⟨howned, hdue⟩

theorem State.leaseLapse_early {s : State} (h : s.upNs < s.sys.leaseEnd) : s.leaseLapse = s :=
  if_neg fun hdue => Nat.not_le.2 h hdue.2

/-- A record lost to a full capture queue is counted; no other register changes with a record. -/
theorem State.logArrive_regsKept (s : State) (e : LogRec) : regsKept s (s.logArrive e) [.LOG_CNT, .LOG_STATUS] := by
  have hrefl := regsKept_refl s [.LOG_CNT, .LOG_STATUS]
  unfold State.logArrive
  split
  · exact hrefl.congr rfl
  · split
    · exact hrefl.congr rfl
    · refine (regsKept.put ?_ F.LOG_CNT_overrun _ (by decide) (by decide)).put F.LOG_STATUS_overrun_evt 1 (by decide) (by decide)
      exact hrefl.congr rfl

theorem State.logEv_regsKept (s : State) (code block unit severity : Nat) (snap : List Nat) :
    regsKept s (s.logEv code block unit severity snap) [.LOG_CNT, .LOG_STATUS] := s.logArrive_regsKept _

end Sys2Proof.Machine
end

section
/-! SUPPORT. The register file after a reset (18 R406, R407). -/
namespace Sys2Proof.Machine

theorem smap_get?_filter_of_false {α : Type} {p : Nat × α → Bool} {k : Nat} (hp : ∀ e, e.1 = k → p e = false) (m : SMap α) :
    SMap.get? (m.filter p) k = none := by
  cases h : SMap.get? (m.filter p) k with
  | none => rfl
  | some a =>
    have hmem := (List.mem_filter.1 (mem_of_smap_get? h)).2
    rw [hp (k, a) rfl] at hmem
    cases hmem

theorem State.reg_porstDown (s : State) (n : RegName) (u i : Nat) : s.porstDown.reg n u i = resetReg ⟨n, u, i⟩ := rfl

theorem valid_memChanStat {c : Nat} (hc : c < 256) : RegAddr.valid ⟨.MEM_CHAN_STAT, c / 8, c % 8⟩ :=
  have hunit : c / 8 < 32 := by omega
  have hidx : c % 8 < 8 := by omega
  ⟨hunit, fun h => (nomatch h), hidx⟩

theorem State.channelsTo_regsKept (s : State) (a b : Nat) : regsKept s (s.channelsTo a b) [.MEM_CHAN_STAT] := by
  refine regsKept_foldl _ (fun c hc t => ?_) s
  split
  · exact regsKept_put t (valid_memChanStat (List.mem_range.1 hc))
  · exact regsKept_refl t _

theorem State.sysrstDown_regs {s : State} (hp : s.sys.porst = false) :
    ∃ t : State, t.regs = s.keptRegs ∧ s.sysrstDown = t.channelsTo 0 2 := by
  unfold State.sysrstDown
  rw [hp, if_neg Bool.false_ne_true]
  exact ⟨_, rfl, rfl⟩

theorem State.keptRegs_of_not_survives (s : State) {r : RegAddr} (hv : r.valid) (hs : survives r.name = false)
    (hstatus : r.name ≠ .PWR_STATUS) : s.keptRegs.get? r.addr = none := by
  have hne : r.addr ≠ RegAddr.addr ⟨.PWR_STATUS, 0, 0⟩ := fun h =>
    hstatus (congrArg RegAddr.name (RegAddr.addr_inj hv (by decide) h))
  unfold State.keptRegs
  split
  · rw [SMap.get?_put_ne _ _ hne]
    exact smap_get?_filter_of_false (fun e he => by rw [he, locate_addr hv]; exact hs) _
  · exact smap_get?_filter_of_false (fun e he => by rw [he, locate_addr hv]; exact hs) _

/-- SYSRST_N outside PORST_N: a register that does not survive stands at its reset value. -/
theorem State.reg_sysrstDown {s : State} (hp : s.sys.porst = false) {r : RegAddr} (hv : r.valid) (hs : survives r.name = false)
    (hstatus : r.name ≠ .PWR_STATUS) : s.sysrstDown.reg r.name r.unit r.idx = resetReg r := by
  obtain ⟨t, hregs, hdown⟩ := State.sysrstDown_regs hp
  have hchan : r.name ∉ [RegName.MEM_CHAN_STAT] := fun h => by
    rw [List.mem_singleton.1 h] at hs
    cases hs
  rw [hdown, t.channelsTo_regsKept 0 2 _ _ _ hchan hv, State.reg, hregs, SMap.getD, s.keptRegs_of_not_survives hv hs hstatus,
    Option.getD_none]

end Sys2Proof.Machine
end

section
/-! The obligation of 17 R384 to R387. -/
namespace Sys2Proof.Machine

/-! ### Writes of DEV_OWNER -/

theorem exec_ownerClaim (m : Master) (v : Reg64) (s : State) :
    exec (.ownerClaim m v) s = .next (s.writeTo m .DEV_OWNER (v ||| 1)) := rfl

theorem exec_ownerRelease (m : Master) (v : Reg64) (s : State) :
    exec (.ownerRelease m v) s = .next (s.writeTo m .DEV_OWNER ((v ||| 2) &&& 0xFFFFFFFFFFFFFFFE)) := rfl

theorem exec_registerWrite_named (m : Master) (n : RegName) (v : Reg64) (u i : Nat) (s : State) :
    exec (.registerWrite m (RegAddr.addr ⟨n, u, i⟩) v) s = .next (s.writeTo m n v u i) := rfl

theorem State.writeOwner_of_wrOwner {s t : State} {m : Master} {v : Reg64} {ok : Bool} (hr : s.reaches m = true)
    (h : s.wrOwner m v = (ok, t)) : s.writeTo m .DEV_OWNER v = t.answerBus 0 (bnat (!ok)) :=
  State.writeTo_of_judged hr valid_devOwner h

theorem completes_ownerClaim_unowned {s : State} {m : Master} (v : Reg64) (hr : s.reaches m = true) (hc : candidate m = true)
    (hunowned : s.flag F.DEV_OWNER_owned = false) :
    Completes (.ownerClaim m v) s (fun t =>
      t.ownedBy m = true ∧ t.get F.DEV_OWNER_period_ms = periodOf v ∧ t.bus = ⟨0, 0⟩ ∧
      t = { s with regs := t.regs, bus := t.bus, sys := s.leased (periodOf v) } ∧ regsKept s t [.DEV_OWNER]) := by
  have htake : s.takePeriod (v ||| 1) = s.takePeriod v := by rw [State.takePeriod, periodOf_claim, State.takePeriod]
  have hwrite := State.writeOwner_of_wrOwner hr (State.wrOwner_claim hc hunowned (bit_claim v))
  have hkept : regsKept s (s.takePeriod v) [.DEV_OWNER] := s.takePeriod_regsKept v (by decide)
  obtain ⟨hframe, hsys⟩ := State.becomeOwner_frame (s.takePeriod_onlyRegs v) m
  rw [htake] at hwrite
  rw [s.takePeriod_period] at hsys
  refine ⟨_, (exec_ownerClaim m v s).trans (congrArg _ hwrite), ?_, ?_, State.answerBus_bus .., ?_, ?_⟩
  · exact (State.ownedBy_answerBus ..).trans (State.becomeOwner_ownedBy _ hc)
  · exact (State.get_answerBus ..).trans ((State.becomeOwner_period _ m).trans (s.takePeriod_period v))
  · rw [← hsys]
    exact hframe.answerBus 0 0
  · exact (State.becomeOwner_regsKept hkept (by decide) m).answerBus _ _

theorem completes_ownerClaim_owned {s : State} {m : Master} (v : Reg64) (hr : s.reaches m = true)
    (howned : s.flag F.DEV_OWNER_owned = true) :
    Completes (.ownerClaim m v) s (fun t => t = (s.dropWrite m).answerBus 0 1) := by
  have hwrite := State.writeOwner_of_wrOwner hr (State.wrOwner_claim_dropped m howned (bit_claim v))
  exact ⟨_, (exec_ownerClaim m v s).trans (congrArg _ hwrite), rfl⟩

theorem completes_ownerRelease {s : State} {m : Master} (v : Reg64) (hr : s.reaches m = true) (ho : s.ownedBy m = true) :
    Completes (.ownerRelease m v) s (fun t =>
      onlyRegs s t ∧ t.flag F.DEV_OWNER_owned = false ∧ t.flag F.DEV_HANDOVER_en = false ∧ t.bus = ⟨0, 0⟩ ∧
      regsKept s t [.DEV_OWNER, .DEV_HANDOVER]) := by
  obtain ⟨hclaim, hrelease⟩ := bit_release v
  have hwrite := State.writeOwner_of_wrOwner hr (State.wrOwner_of_owner ho hclaim)
  rw [hrelease, if_pos rfl] at hwrite
  refine ⟨_, (exec_ownerRelease m v s).trans (congrArg _ hwrite), ?_, ?_, ?_, State.answerBus_bus .., ?_⟩
  · exact (State.disown_onlyRegs (s.takePeriod_onlyRegs _)).answerBus _ _
  · exact (State.flag_answerBus ..).trans (State.disown_owned _)
  · exact (State.flag_answerBus ..).trans (State.disown_en _)
  · exact (State.disown_regsKept (s.takePeriod_regsKept _ (by decide))).answerBus _ _

theorem completes_registerWrite_period {s : State} {m : Master} {v : Reg64} (hr : s.reaches m = true) (ho : s.ownedBy m = true)
    (hclaim : bit v 0 = false) (hrelease : bit v 1 = false) :
    Completes (.registerWrite m (RegAddr.addr ⟨.DEV_OWNER, 0, 0⟩) v) s (fun t =>
      onlyRegs s t ∧ t.ownedBy m = true ∧ t.get F.DEV_OWNER_period_ms = periodOf v ∧ regsKept s t [.DEV_OWNER]) := by
  have hwrite := State.writeOwner_of_wrOwner hr (State.wrOwner_of_owner ho hclaim)
  rw [hrelease, if_neg Bool.false_ne_true] at hwrite
  refine ⟨_, (exec_registerWrite_named m _ v 0 0 s).trans (congrArg _ hwrite), ?_, ?_, ?_, ?_⟩
  · exact (s.takePeriod_onlyRegs v).answerBus _ _
  · exact (State.ownedBy_answerBus ..).trans ((s.takePeriod_ownedBy v m).trans ho)
  · exact (State.get_answerBus ..).trans (s.takePeriod_period v)
  · exact (s.takePeriod_regsKept v (by decide)).answerBus _ _

/-! ### Renewal -/

theorem exec_renew (m : Master) (s : State) : exec (.renew m) s = .next (s.writeTo m .DEV_LEASE 0x8000000000000000) := rfl

theorem State.writeLease_of_wrLease {s t : State} {m : Master} {v : Reg64} {ok : Bool} (hr : s.reaches m = true)
    (h : s.wrLease m v = (ok, t)) : s.writeTo m .DEV_LEASE v = t.answerBus 0 (bnat (!ok)) :=
  State.writeTo_of_judged hr valid_devLease h

theorem completes_renew_of_owner {s : State} {m : Master} (hr : s.reaches m = true) (ho : s.ownedBy m = true) :
    Completes (.renew m) s (fun t => t = s.startLease.answerBus 0 0) := by
  have hwrite := State.writeLease_of_wrLease hr (State.wrLease_of_owner (v := 0x8000000000000000) ho (by decide))
  exact ⟨_, (exec_renew m s).trans (congrArg _ hwrite), rfl⟩

theorem completes_renew_of_successor {s : State} {m : Master} (hr : s.reaches m = true) (hs : s.successor m = true)
    (ho : s.ownedBy m = false) :
    Completes (.renew m) s (fun t =>
      t.ownedBy m = true ∧ t.flag F.DEV_HANDOVER_en = false ∧ t.sys.leaseEnd = s.upNs + s.get F.DEV_OWNER_period_ms * 10 ^ 6 ∧
      t = { s with regs := t.regs, bus := ⟨0, 0⟩, sys := t.sys } ∧ regsKept s t [.DEV_OWNER, .DEV_HANDOVER]) := by
  have hwrite := State.writeLease_of_wrLease hr (State.wrLease_of_successor (v := 0x8000000000000000) hs ho (by decide))
  have hkept : regsKept s (s.becomeOwner m) [.DEV_OWNER, .DEV_HANDOVER] :=
    State.becomeOwner_regsKept (regsKept_refl s _) (by decide) m
  obtain ⟨hframe, hsys⟩ := State.becomeOwner_frame (onlyRegs_refl s) m
  refine ⟨_, (exec_renew m s).trans (congrArg _ hwrite), ?_, ?_, ?_, ?_, ?_⟩
  · calc ((s.becomeOwner m).clearHandover.answerBus 0 0).ownedBy m
        = (s.becomeOwner m).clearHandover.ownedBy m := State.ownedBy_answerBus ..
      _ = (s.becomeOwner m).ownedBy m := State.ownedBy_of_regsKept (State.clearHandover_regsKept_handover _) (by decide) m
      _ = true := s.becomeOwner_ownedBy (State.candidate_of_successor hs)
  · exact (State.flag_answerBus ..).trans (State.clearHandover_en _)
  · rw [State.answerBus_sys, State.clearHandover, State.put_sys, hsys, s.leased_leaseEnd]
  · exact (hframe.put F.DEV_HANDOVER_en 0 0 0).answerBus 0 0
  · exact (State.clearHandover_regsKept hkept (by decide)).answerBus _ _

/-! ### Lapse -/

theorem exec_leaseLapse (s : State) : exec .leaseLapse s = .next (if s.leaseMet then s else s.leaseLapse) := rfl

theorem completes_leaseLapse_met {s : State} (h : s.leaseMet = true) : Completes .leaseLapse s (fun t => t = s) :=
  ⟨s, by rw [exec_leaseLapse, if_pos h], rfl⟩

theorem completes_leaseLapse_early {s : State} (h : s.upNs < s.sys.leaseEnd) : Completes .leaseLapse s (fun t => t = s) :=
  ⟨s, by rw [exec_leaseLapse, State.leaseLapse_early h, ite_self], rfl⟩

theorem completes_leaseLapse_due {s : State} (howned : s.flag F.DEV_OWNER_owned = true) (hmet : s.leaseMet = false)
    (hdue : s.sys.leaseEnd ≤ s.upNs) :
    Completes .leaseLapse s (fun t =>
      t.flag F.DEV_OWNER_owned = false ∧ t.flag F.DEV_HANDOVER_en = false ∧
      (∃ u : State, onlyRegs s u ∧ regsKept s u [.DEV_OWNER, .DEV_HANDOVER] ∧ t = u.logEv 0x0002 0x000 0 4 [])) := by
  have hexec : exec .leaseLapse s = .next (s.disown.logEv 0x0002 0x000 0 4 []) := by
    rw [exec_leaseLapse, hmet, if_neg Bool.false_ne_true, State.leaseLapse_due howned hdue]
  have hlogged := s.disown.logEv_regsKept 0x0002 0x000 0 4 []
  refine ⟨_, hexec, ?_, ?_, s.disown, State.disown_onlyRegs (onlyRegs_refl s), State.disown_regsKept (regsKept_refl s _), rfl⟩
  · exact (State.flag_of_regsKept hlogged (by decide) valid_devOwner).trans s.disown_owned
  · exact (State.flag_of_regsKept hlogged (by decide) valid_devHandover).trans s.disown_en

/-! ### Handover -/

theorem exec_handoverWrite {s t : State} {m : Master} {v : Reg64} {ok : Bool} (hr : s.reaches m = true)
    (h : s.wrHandover m v = (ok, t)) : exec (.handoverWrite m v) s = .next (t.answerBus 0 (bnat (!ok))) :=
  congrArg Host.Outcome.next (State.writeTo_of_judged hr valid_devHandover h)

theorem completes_handoverWrite_dropped {s : State} {m : Master} (v : Reg64) (hr : s.reaches m = true) (ho : s.ownedBy m = false) :
    Completes (.handoverWrite m v) s (fun t => t = (s.dropWrite m).answerBus 0 1) :=
  ⟨_, exec_handoverWrite hr (State.wrHandover_of_not_owner v ho), rfl⟩

theorem completes_handoverWrite_of_owner {s : State} {m : Master} (v : Reg64) (hr : s.reaches m = true) (ho : s.ownedBy m = true) :
    Completes (.handoverWrite m v) s (fun t =>
      onlyRegs s t ∧ t.bus = ⟨0, 0⟩ ∧ regsKept s t [.DEV_HANDOVER] ∧
      (bit v 63 = false → t.flag F.DEV_HANDOVER_en = false ∧ t.flag F.DEV_HANDOVER_refused = false) ∧
      (bit v 63 = true → fld v 7 0 ≤ 3 → fld v 7 0 ≠ Master.code m →
        t.flag F.DEV_HANDOVER_en = true ∧ t.get F.DEV_HANDOVER_successor = fld v 7 0 ∧ t.flag F.DEV_HANDOVER_refused = false) ∧
      (bit v 63 = true → (3 < fld v 7 0 ∨ fld v 7 0 = Master.code m) →
        t.flag F.DEV_HANDOVER_refused = true ∧ t.flag F.DEV_HANDOVER_en = s.flag F.DEV_HANDOVER_en ∧
        t.get F.DEV_HANDOVER_successor = s.get F.DEV_HANDOVER_successor)) := by
  cases hv : bit v 63 with
  | false =>
    have hexec := exec_handoverWrite hr (State.wrHandover_cancel ho hv)
    refine ⟨_, hexec, (s.nameSuccessor_onlyRegs _ _).answerBus _ _, State.answerBus_bus ..,
      (s.nameSuccessor_regsKept _ _).answerBus _ _, fun _ => ?_, nofun, nofun⟩
    rw [State.flag_answerBus, State.flag_answerBus, State.nameSuccessor_en]
    exact ⟨s.flag_put_zero F.DEV_HANDOVER_en 0 0 (by decide) (by decide), s.nameSuccessor_refused _ _⟩
  | true =>
    by_cases hn : 3 < fld v 7 0 ∨ fld v 7 0 = Master.code m
    · have hexec := exec_handoverWrite hr (State.wrHandover_refuse ho hv hn)
      have hkept : regsKept s (s.put F.DEV_HANDOVER_refused 1) [.DEV_HANDOVER] := regsKept_put s valid_devHandover
      have honly : onlyRegs s (s.put F.DEV_HANDOVER_refused 1) := (onlyRegs_refl s).put F.DEV_HANDOVER_refused 1 0 0
      refine ⟨_, hexec, honly.answerBus _ _, State.answerBus_bus .., hkept.answerBus _ _, nofun,
        fun _ hle hne => absurd hn (by omega), fun _ _ => ?_⟩
      rw [State.flag_answerBus, State.flag_answerBus, State.get_answerBus]
      exact s.refuseHandover_effect
    · obtain ⟨hle, hne⟩ : fld v 7 0 ≤ 3 ∧ fld v 7 0 ≠ Master.code m := by omega
      have hexec := exec_handoverWrite hr (State.wrHandover_name ho hv hle hne)
      refine ⟨_, hexec, (s.nameSuccessor_onlyRegs _ _).answerBus _ _, State.answerBus_bus ..,
        (s.nameSuccessor_regsKept _ _).answerBus _ _, nofun, fun _ _ _ => ?_, fun _ h => absurd h hn⟩
      rw [State.flag_answerBus, State.flag_answerBus, State.get_answerBus, State.nameSuccessor_en, State.nameSuccessor_successor]
      exact ⟨s.flag_put_one F.DEV_HANDOVER_en 0 0 (by decide) (by decide), Nat.mod_eq_of_lt (fld_lt v 7 0), s.nameSuccessor_refused _ _⟩

/-! ### Resets -/

theorem exec_porstAssert (s : State) : exec .porstAssert s = .next s.porstDown := rfl

theorem exec_sysrstAssert (s : State) : exec .sysrstAssert s = .next s.sysrstDown := rfl

theorem State.unowned_of_reset {t : State} (h : t.reg .DEV_OWNER 0 0 = resetReg ⟨.DEV_OWNER, 0, 0⟩) :
    t.flag F.DEV_OWNER_owned = false := by
  have hreset : fld (resetReg ⟨.DEV_OWNER, 0, 0⟩) 63 63 = 0 := by decide
  have hget : t.get F.DEV_OWNER_owned = 0 := (congrArg (fld · 63 63) h).trans hreset
  rw [State.flag, hget]
  rfl

theorem completes_porstAssert_unowned (s : State) : Completes .porstAssert s (fun t => t.flag F.DEV_OWNER_owned = false) :=
  ⟨_, exec_porstAssert s, State.unowned_of_reset (s.reg_porstDown .DEV_OWNER 0 0)⟩

theorem completes_sysrstAssert_unowned {s : State} (hp : s.sys.porst = false) :
    Completes .sysrstAssert s (fun t => t.flag F.DEV_OWNER_owned = false) := by
  have hreset : s.sysrstDown.reg .DEV_OWNER 0 0 = resetReg ⟨.DEV_OWNER, 0, 0⟩ :=
    State.reg_sysrstDown hp (r := ⟨.DEV_OWNER, 0, 0⟩) valid_devOwner rfl (by decide)
  exact ⟨_, exec_sysrstAssert s, State.unowned_of_reset hreset⟩

/-- Settles O5: each command is one judged write (`State.writeTo_of_judged`) with its case of `wrOwner`, `wrLease` or `wrHandover`; the
lapse is `State.disown` under a record, and a reset leaves DEV_OWNER at its reset value. -/
theorem ownershipFollowsClaimsAndLeases : Obligations.OwnershipFollowsClaimsAndLeases := by
  unfold Obligations.OwnershipFollowsClaimsAndLeases
  refine ⟨fun s m v hr hc => ⟨?_, ?_⟩, fun s m hr => ⟨fun ho v => ?_, ?_, ?_⟩,
    ⟨fun s m v hr ho hclaim hrelease => ?_, fun s => ⟨?_, ?_⟩⟩, fun s howned => ⟨?_, ?_, ?_⟩, fun s m v hr => ⟨?_, ?_⟩⟩
  · exact completes_ownerClaim_unowned v hr hc
  · exact completes_ownerClaim_owned v hr
  · exact completes_ownerRelease v hr ho
  · exact completes_renew_of_owner hr
  · exact completes_renew_of_successor hr
  · exact completes_registerWrite_period hr ho hclaim hrelease
  · exact completes_porstAssert_unowned s
  · exact completes_sysrstAssert_unowned
  · exact completes_leaseLapse_met
  · exact completes_leaseLapse_due howned
  · exact completes_leaseLapse_early
  · exact completes_handoverWrite_of_owner v hr
  · exact completes_handoverWrite_dropped v hr

end Sys2Proof.Machine
end
